-- ==== Sys2Proof/Word.lean ====
section
/-! DEFINITION. The words of the block: every value is unsigned and bit 0 is its least-significant bit (R7). -/

namespace Sys2Proof

/-- A command word `W[31:0]` (R60). -/
abbrev CmdWord := BitVec 32

/-- An 8-bit command field or brightness (R60, R16). -/
abbrev Byte := BitVec 8

/-- A pin number, 0 to 255: a label with which no rule computes (R44). -/
abbrev Pin := BitVec 8

/-- A 16-bit value: the register image, `imm16`, the response register (R10, R60, R32). -/
abbrev Half := BitVec 16

/-- `ADC_BITS`, the width of one analog sample (R6, D18; log 12). -/
abbrev adcBits : Nat := 12

/-- A raw or inverted analog code, 0 to `ADC_MAX` (R143, R145). -/
abbrev AdcCode := BitVec adcBits

/-- `DUTY_W`, the width of the duty counter (R6, D12; log 12). -/
abbrev dutyWidth : Nat := 32

end Sys2Proof
end

