-- ==== Sys2Proof/Config.lean ====
section
/-! DEFINITION. What a build of the block fixes (R6): the build flags, the pin constants, the LED table, the change
threshold, the busy-waits. The parameters the spec marks OPEN are constants with no body: nothing can be proved of their
values beyond the constraints their types carry (log 2). The defaults in the two structures below only show that the
constraints can be met. -/

namespace Sys2Proof

/-- The three LED backends, "selected at compile time (not runtime)" (R110). -/
inductive Backend
  | shift16
  | gpio8
  | disabled
deriving DecidableEq, Repr

/-- `SR_SER_PIN`, `SR_CLK_PIN`, `SR_LATCH_PIN`: the pins LED.INIT passes to the SRD, pairwise distinct (R6, D31). -/
structure SrPins where
  ser : Pin := 0
  clk : Pin := 1
  latch : Pin := 2
  ser_ne_clk : ser ≠ clk := by decide
  ser_ne_latch : ser ≠ latch := by decide
  clk_ne_latch : clk ≠ latch := by decide
deriving DecidableEq, Repr, Inhabited

/-- `LED_MAP`, the table from logical LED index to physical bit, with exactly the constraints (a) to (d) of R101;
(e) follows from (b). No entry but 7 and 15 is known. -/
structure LedMap where
  entries : Vector (Fin 16) 16 := #v[1, 2, 3, 4, 5, 6, 7, 0, 8, 9, 10, 11, 12, 13, 14, 15]
  /-- R101 (a): no two logical indices map to the same physical bit. -/
  injective : ∀ i j : Fin 16, entries[i] = entries[j] → i = j := by decide
  /-- R101 (b). -/
  seven : entries[(7 : Fin 16)] = 0 := by decide
  /-- R101 (c). -/
  fifteen : entries[(15 : Fin 16)] = 15 := by decide
  /-- R101 (d): the step indices map onto bits 0 to 7. -/
  steps : ∀ i : Fin 16, i.val < 8 → (entries[i]).val < 8 := by decide
  /-- R101 (d): the parameter and transport indices map into bits 8 to 15. -/
  panel : ∀ i : Fin 16, 8 ≤ i.val → 8 ≤ (entries[i]).val := by decide
deriving DecidableEq, Repr, Inhabited

/-- The parameters of R6 that a build fixes. The constants the source states are in Machine/Params.lean. -/
structure Build where
  /-- `F_SHIFT`, "selecting shift-register backend". -/
  fShift : Bool
  /-- `F_AUDIO`, "selecting audio-output backend". -/
  fAudio : Bool
  /-- The pins LED.INIT passes to the SRD. -/
  srPins : SrPins
  /-- `LED_GPIO_PIN[0..7]`. -/
  ledGpioPins : Vector Pin 8
  /-- `MUX_SEL_PIN[0..3]`. -/
  muxSelPins : Vector Pin 4
  /-- `MUX_AIN_PIN`. -/
  muxAinPin : Pin
  /-- `LED_MAP`. -/
  ledMap : LedMap
  /-- `KNOB_THRESHOLD`, 0 to `ADC_MAX`. -/
  knobThreshold : AdcCode
  /-- `AMX_FLAG_STICKY` (R146). -/
  flagSticky : Bool
  /-- `T_SR_DELAY`; no rule depends on its length (R212). -/
  tSrDelay : Nat
  /-- `T_SETTLE`; no rule depends on its length (R212). -/
  tSettle : Nat
deriving DecidableEq, Repr

/-- OPEN: the SRD pins of the build (R6; log 2). -/
opaque Config.srPins : SrPins
/-- OPEN: the pins of the `GPIO8` backend, by index 0 to 7 (R6, D27; log 2). -/
opaque Config.ledGpioPins : Vector Pin 8
/-- OPEN: the pins of the four select lines (R6; log 2). -/
opaque Config.muxSelPins : Vector Pin 4
/-- OPEN: the pin of the analog input (R6; log 2). -/
opaque Config.muxAinPin : Pin
/-- OPEN: the LED table, "must not be inferred" (R101, D14; log 2). -/
opaque Config.ledMap : LedMap
/-- OPEN: the change threshold (R146, D19; log 2). -/
opaque Config.knobThreshold : AdcCode
/-- OPEN: the length of the busy-wait of the shift sequence (R6, D17; log 7). -/
opaque Config.tSrDelay : Nat
/-- OPEN: the length of the settling delay (R6, D17; log 7). -/
opaque Config.tSettle : Nat
/-- The environment's draw: the raw code of the n-th sample since power-on, where no code was supplied (R143, U8; log 5). -/
opaque Config.adcSample : Nat → AdcCode

end Sys2Proof
end

