-- ==== Sys2Proof/Machine/Params.lean ====
section
/-! DEFINITION. The parameters of R6 whose values the spec states (unaudited literals: log 19), and the backend the flags
select (R110). -/

namespace Sys2Proof.Machine

/-- `I_MAX`, the largest brightness intent. -/
def iMax : Nat := 1000
/-- `B_MAX`, the largest internal brightness. -/
def bMax : Nat := 255
/-- `PWM_PERIOD`, the modulus of the duty compare. -/
def pwmPeriod : Nat := 256
/-- `CONT_PERIOD`, calls per true answer of LED.CONT. -/
def contPeriod : Nat := 1000
/-- `STARTUP_COUNT`, polls suppressed after AMX.INIT or a reset command. -/
def startupCount : Half := 800
/-- `ADC_MAX = 2^ADC_BITS - 1`, the largest raw sample. -/
def adcMax : AdcCode := BitVec.allOnes adcBits

/-- `BACKEND` from the two flags; `F_SHIFT` wins when both are set (R110, D29). -/
def backendOf (bd : Build) : Backend :=
  if bd.fShift then .shift16 else if bd.fAudio then .disabled else .gpio8

/-- `N_LED` (R6, R110). -/
def nLed : Backend → Nat
  | .shift16 => 16
  | .gpio8 => 8
  | .disabled => 0

/-- `SETALL_K`, the budget constant of LED.SETALL (R6, R118; `DISABLED` has none and never uses it). -/
def setallK : Backend → Nat
  | .shift16 => 4080
  | .gpio8 => 2040
  | .disabled => 0

end Sys2Proof.Machine
end

