-- ==== Sys2Proof/Machine/Flags.lean ====
section
/-! DEFINITION. The block's only flags are the sixteen `K_CHG` bits (R26). The comparator that computes them (R145, R146),
and the one-bit compare of the PWM tick (R115). -/

namespace Sys2Proof.Machine

/-- The inverted sample `v = ADC_MAX - raw` (R145). -/
def invertSample (raw : AdcCode) : AdcCode := adcMax - raw

/-- `abs_diff`, on unbounded integers (R7). -/
def absDiff (a b : AdcCode) : Nat := if b.toNat ≤ a.toNat then a.toNat - b.toNat else b.toNat - a.toNat

/-- The change test `abs_diff(v, K_REP[ch]) > KNOB_THRESHOLD`, strict (R146). -/
def changePasses (threshold v rep : AdcCode) : Bool := decide (threshold.toNat < absDiff v rep)

/-- `K_CHG[ch]` after a read: set when the test passes; when it fails cleared, or kept if `AMX_FLAG_STICKY` (R146). -/
def changedFlag (sticky passes old : Bool) : Bool := passes || (sticky && old)

/-- `K_REP[ch]` after a read (R146). -/
def reportedValue (passes : Bool) (v old : AdcCode) : AdcCode := if passes then v else old

/-- The phase of a tick, `LED_DC mod 256` (R115). -/
def phaseOf (dc : BitVec dutyWidth) : Nat := dc.toNat % pwmPeriod

/-- A LED is on in a tick exactly when `phase < LED_B[i]`, strict (R115). -/
def pwmOn (phase : Nat) (brightness : Byte) : Bool := decide (phase < brightness.toNat)

end Sys2Proof.Machine
end

