-- ==== Sys2Proof/Machine/Operands.lean ====
section
/-! DEFINITION. Operand forms: the one addressing mode "immediate index" (R163) with its range tests (R41 to R43, R46), the
clamp and rescale of intensities (R112), the SETALL budget (R118), the bit of a byte or of the image an index names. -/

namespace Sys2Proof.Machine

/-- A physical bit, logical index of the map, or channel, when the operand is in its space 0 to 15 (R42, R43, R46). -/
def index16 (a : Byte) : Option (Fin 16) :=
  if h : a.toNat < 16 then some ⟨a.toNat, h⟩ else none

/-- A logical LED, when the operand is below `N_LED` (R41, R113). -/
def ledIndex (be : Backend) (a : Byte) : Option (Fin 16) :=
  if a.toNat < nLed be then index16 a else none

/-- The logical LEDs of a backend, in ascending order. -/
def ledIndices (be : Backend) : List (Fin 16) := (List.finRange 16).filter (fun i => decide (i.val < nLed be))

/-- `scale(x) = floor(min(x, 1000) * 255 / 1000)`, as a number (R112). -/
def scaleNat (x : Half) : Nat := min x.toNat iMax * bMax / iMax

/-- The internal brightness of an intent or delta (R112). -/
def scale (x : Half) : Byte := BitVec.ofNat 8 (scaleNat x)

/-- `min(255, LED_B[a] + scale(delta))` (R117). -/
def addSaturate (old : Byte) (delta : Half) : Byte := BitVec.ofNat 8 (min bMax (old.toNat + scaleNat delta))

/-- `budget = floor(min(imm16, 1000) * SETALL_K / 1000)` (R118). -/
def setallBudget (be : Backend) (x : Half) : Nat := min x.toNat iMax * setallK be / iMax

/-- `T[i] <- v` of a state table (R7). -/
def setEntry {α : Type} {n : Nat} (t : Vector α n) (i : Fin n) (v : α) : Vector α n := t.set i.val v i.isLt

/-- The level meter: each LED of the list takes what it can of the budget, the rest goes to the next (R118). -/
def spread : List (Fin 16) → Nat → Vector Byte 16 → Vector Byte 16
  | [], _, b => b
  | i :: is, budget, b => spread is (budget - min budget bMax) (setEntry b i (BitVec.ofNat 8 (min budget bMax)))

/-- Zero the entries of the listed LEDs (R120, R121). -/
def darken (is : List (Fin 16)) (b : Vector Byte 16) : Vector Byte 16 := is.foldl (fun b i => setEntry b i 0) b

/-- Logical LED `k` takes bit `7 - k` of the byte, full or dark; the other entries stay (R70, R119, D9). -/
def showByte (c : Byte) (b : Vector Byte 16) : Vector Byte 16 :=
  (List.finRange 8).foldl
    (fun b k => setEntry b (k.castLE (by decide : 8 ≤ 16)) (if c.getLsbD (7 - k.val) then BitVec.ofNat 8 bMax else 0)) b

/-- `v[p] <- on`, the other bits kept (R84). -/
def setBit (v : Half) (p : Fin 16) (on : Bool) : Half :=
  if on then v ||| (1#16 <<< p.val) else v &&& ~~~(1#16 <<< p.val)

/-- A one-bit result in `RESP[0]` (R64). -/
def boolResp (b : Bool) : Half := (BitVec.ofBool b).setWidth 16

/-- A physical bit in `RESP[3:0]` (R64). -/
def bitResp (p : Fin 16) : Half := BitVec.ofNat 16 p.val

end Sys2Proof.Machine
end

