-- ==== Sys2Proof/Machine/State.lean ====
section
/-! DEFINITION. The state of the block (10_state.md), grouped by the unit that owns it (R30), as plain data; the reasons a
step can stop; power-on (R190). -/

namespace Sys2Proof.Machine

/-- The three units with state of their own (R1). -/
inductive Unit3
  | srd
  | led
  | amx
deriving DecidableEq, Repr

/-- The block raises nothing: "nothing in this core terminates the process or raises a catchable fault" (R170). So there
is no fault; nothing raises one. -/
inductive Fault
deriving DecidableEq, Repr

/-- Why the model refuses a command: the run is outside the spec. -/
inductive Refusal
  /-- Raised by exec's arm of an instruction that has no meaning yet. Safe. -/
  | notModelled (mnemonic : String)
  /-- Raised by an in-range command of unit `u`, other than its INIT, while the unit's ghost flag is 0 (R172, R191; log 8).
  Safe: nothing is proved of such a run. -/
  | uninitializedUse (u : Unit3)
  /-- Raised by SR.INIT when two of its three pin numbers are equal (R83, U6; log 9). Safe. -/
  | equalPins
deriving DecidableEq, Repr

/-- What a line is configured as (R12, R19, R27). -/
inductive Dir
  | out
  | analogIn
  | notConfigured
deriving DecidableEq, Repr

/-- The GPIO lines of the block (00_scope.md glossary, "line"). -/
inductive Line
  | ser
  | srclk
  | rclk
  | sel (k : Fin 4)
  | ain
  | ledpin (i : Fin 8)
deriving DecidableEq, Repr

/-- The two busy-waits (R8, R181). -/
inductive Wait
  | srDelay
  | settle
deriving DecidableEq, Repr

/-- An event of the trace (R8, R9). A line event also carries the number of the pin the line is on, and a delay its
length: both are labels, read by no rule (R11, R212; log 6, log 7). -/
inductive Event
  | lineDir (l : Line) (pin : Pin) (d : Dir)
  | lineWrite (l : Line) (pin : Pin) (level : Bool)
  | delay (t : Wait) (length : Nat)
  | adcSample (raw : AdcCode)
deriving DecidableEq, Repr

/-- The shift-register driver's state (R10 to R13, R15). -/
structure Srd where
  /-- `SR_IMG` (R10). -/
  img : Half
  /-- `SR_PIN_SER` (R11). -/
  pinSer : Pin
  /-- `SR_PIN_CLK` (R11). -/
  pinClk : Pin
  /-- `SR_PIN_LATCH` (R11). -/
  pinLatch : Pin
  /-- `DIR_SER` (R12). -/
  dirSer : Dir
  /-- `DIR_SRCLK` (R12). -/
  dirSrclk : Dir
  /-- `DIR_RCLK` (R12). -/
  dirRclk : Dir
  /-- `L_SER` (R13). -/
  lSer : Bool
  /-- `L_SRCLK` (R13). -/
  lSrclk : Bool
  /-- `L_RCLK` (R13). -/
  lRclk : Bool
  /-- `SR_INITED`, a ghost flag (R15). -/
  inited : Bool
deriving DecidableEq, Repr

/-- The external chain of two cascaded 8-bit registers (R14). -/
structure Chain where
  /-- `CH_SHIFT`, the shift stage (R14). -/
  shift : Half
  /-- `CH_Q`, the output latches (R14). -/
  q : Half
deriving DecidableEq, Repr

/-- The LED engine's state (R16 to R20). -/
structure Led where
  /-- `LED_B[0..15]` (R16). With `GPIO8` entries 8 to 15 do not exist: no command reads or writes them (log 13). -/
  b : Vector Byte 16
  /-- `LED_DC`, the duty counter (R17). -/
  dc : BitVec dutyWidth
  /-- `LED_CC`, the cadence counter (R18). -/
  cc : BitVec 10
  /-- `L_LEDPIN[0..7]` (R19). -/
  pinLevel : Vector Bool 8
  /-- `DIR_LEDPIN[0..7]` (R19). -/
  pinDir : Vector Dir 8
  /-- `LED_INITED`, a ghost flag (R20). -/
  inited : Bool
deriving DecidableEq, Repr

/-- The analog multiplexer reader's state (R22 to R29). -/
structure Amx where
  /-- `AMX_SMOOTH`, stored and read by no rule (R22). -/
  smooth : Half
  /-- `K_CUR[0..15]` (R23). -/
  cur : Vector AdcCode 16
  /-- `K_REP[0..15]` (R24). -/
  rep : Vector AdcCode 16
  /-- `K_SUP[0..15]` (R25). -/
  sup : Vector Half 16
  /-- `K_CHG[0..15]` (R26). -/
  chg : Vector Bool 16
  /-- `L_SEL[0..3]` (R27). -/
  sel : Vector Bool 4
  /-- `DIR_SEL[0..3]` (R27). -/
  selDir : Vector Dir 4
  /-- `DIR_AIN` (R27). -/
  ainDir : Dir
  /-- `AMX_INITED`, a ghost flag (R29). -/
  inited : Bool
deriving DecidableEq, Repr

/-- The state of the block, its chain and its port, and the model's own fields (INVENTORY.md, State). -/
structure State where
  /-- The shift-register driver. -/
  srd : Srd
  /-- The external chain. -/
  chain : Chain
  /-- The LED engine. -/
  led : Led
  /-- The analog multiplexer reader. -/
  amx : Amx
  /-- `RESP`, the response register (R32). -/
  resp : Half
  /-- Model's own: the parameters of the build (R6), written by no command (R31; log 2). -/
  build : Build
  /-- Model's own: the events emitted since power-on, oldest first (R9; log 6). -/
  trace : List Event
  /-- Model's own: the command words the host has issued and the block has not taken, next first (R60; log 4). -/
  cmds : List CmdWord
  /-- Model's own: the raw codes the environment has fixed for the next samples, next first (R67 `SAMPLE`; log 5). -/
  adcIn : List AdcCode
  /-- Model's own: how many samples have been drawn (log 5). -/
  adcDraws : Nat
  /-- Model's own: the mark of a run that issued an illegal word (R65, U14; log 10). -/
  runRefused : Bool
deriving DecidableEq, Repr

/-- The build of the reset state: the OPEN parameters are the free values of Config (log 2), the flags select the
shift-register backend, "the hardware this spec is about" (log 3), `AMX_FLAG_STICKY` has its default (R6). -/
def resetBuild : Build where
  fShift := true
  fAudio := false
  srPins := Config.srPins
  ledGpioPins := Config.ledGpioPins
  muxSelPins := Config.muxSelPins
  muxAinPin := Config.muxAinPin
  ledMap := Config.ledMap
  knobThreshold := Config.knobThreshold
  flagSticky := false
  tSrDelay := Config.tSrDelay
  tSettle := Config.tSettle

/-- Power-on (R190): ghost flags 0, no line configured, nothing emitted, nothing issued. The registers the spec leaves
unspecified hold zero (log 1); no command reads one before its unit's INIT (R191). -/
def State.reset : State where
  srd :=
    { img := 0, pinSer := 0, pinClk := 0, pinLatch := 0
      dirSer := .notConfigured, dirSrclk := .notConfigured, dirRclk := .notConfigured
      lSer := false, lSrclk := false, lRclk := false, inited := false }
  chain := { shift := 0, q := 0 }
  led :=
    { b := Vector.replicate 16 0, dc := 0, cc := 0, pinLevel := Vector.replicate 8 false
      pinDir := Vector.replicate 8 .notConfigured, inited := false }
  amx :=
    { smooth := 0, cur := Vector.replicate 16 0, rep := Vector.replicate 16 0, sup := Vector.replicate 16 0
      chg := Vector.replicate 16 false, sel := Vector.replicate 4 false
      selDir := Vector.replicate 4 .notConfigured, ainDir := .notConfigured, inited := false }
  resp := 0
  build := resetBuild
  trace := []
  cmds := []
  adcIn := []
  adcDraws := 0
  runRefused := false

end Sys2Proof.Machine
end

