-- ==== Sys2Proof/Machine/Ops.lean ====
section
/-! DEFINITION. The pseudocode primitives of R8 over State, the chain's reaction (R81), `Transmit()` (R80), the steps of
SR.INIT (R83), `ReadChannel` (R144), and the order of checks (R175). The block raises no exception and has none to return
from (R170, R177, R178): what stands in their place is the ignored call, `RESP <- 0` and nothing else (R171). -/

namespace Sys2Proof.Machine

/-- `Respond(v)`: `RESP <- v` (R8, R32). -/
def respond (v : Half) (s : State) : State := { s with resp := v }

/-- Append an event to the trace (R9). -/
def emit (e : Event) (s : State) : State := { s with trace := s.trace ++ [e] }

/-- The pin a line is on: the SRD's three from its pin registers (R11, R207), the others from the build (R6). -/
def pinOf (s : State) : Line → Pin
  | .ser => s.srd.pinSer
  | .srclk => s.srd.pinClk
  | .rclk => s.srd.pinLatch
  | .sel k => s.build.muxSelPins[k]
  | .ain => s.build.muxAinPin
  | .ledpin i => s.build.ledGpioPins[i]

/-- The shift stage after a rising edge of `SRCLK` (R81 a). -/
def shiftIn (shift : Half) (ser : Bool) : Half := shift * 2 + boolResp ser

/-- The chain's reaction to a line write, before the level changes: a rise of `SRCLK` shifts, a rise of `RCLK` latches,
nothing else has an effect (R81). -/
def chainReact (l : Line) (level : Bool) (s : State) : State :=
  match l with
  | .srclk =>
    if level && !s.srd.lSrclk then { s with chain := { s.chain with shift := shiftIn s.chain.shift s.srd.lSer } } else s
  | .rclk => if level && !s.srd.lRclk then { s with chain := { s.chain with q := s.chain.shift } } else s
  | .ser => s
  | .sel _ => s
  | .ain => s
  | .ledpin _ => s

/-- Set a line's level register (R13, R19, R27); the analog input has none. -/
def setLevel (l : Line) (level : Bool) (s : State) : State :=
  match l with
  | .ser => { s with srd := { s.srd with lSer := level } }
  | .srclk => { s with srd := { s.srd with lSrclk := level } }
  | .rclk => { s with srd := { s.srd with lRclk := level } }
  | .sel k => { s with amx := { s.amx with sel := setEntry s.amx.sel k level } }
  | .ain => s
  | .ledpin i => { s with led := { s.led with pinLevel := setEntry s.led.pinLevel i level } }

/-- `LineWrite(L, b)` (R8). -/
def lineWrite (l : Line) (level : Bool) (s : State) : State :=
  emit (.lineWrite l (pinOf s l) level) (setLevel l level (chainReact l level s))

/-- Set a line's direction register (R12, R19, R27). -/
def setDirection (l : Line) (d : Dir) (s : State) : State :=
  match l with
  | .ser => { s with srd := { s.srd with dirSer := d } }
  | .srclk => { s with srd := { s.srd with dirSrclk := d } }
  | .rclk => { s with srd := { s.srd with dirRclk := d } }
  | .sel k => { s with amx := { s.amx with selDir := setEntry s.amx.selDir k d } }
  | .ain => { s with amx := { s.amx with ainDir := d } }
  | .ledpin i => { s with led := { s.led with pinDir := setEntry s.led.pinDir i d } }

/-- `LineDir(L, d)` (R8). -/
def lineDir (l : Line) (d : Dir) (s : State) : State := emit (.lineDir l (pinOf s l) d) (setDirection l d s)

/-- Configure a line as an output and drive it low (R83, R124, R147; D16). -/
def configureOut (l : Line) (s : State) : State := lineWrite l false (lineDir l .out s)

/-- `Delay(T)`: an event and no other change (R8, R181). -/
def delay (t : Wait) (s : State) : State :=
  match t with
  | .srDelay => emit (.delay .srDelay s.build.tSrDelay) s
  | .settle => emit (.delay .settle s.build.tSettle) s

/-- The raw code the next conversion returns: the environment's choice (R143; log 5). -/
def nextSample (s : State) : AdcCode :=
  match s.adcIn with
  | raw :: _ => raw
  | [] => Config.adcSample s.adcDraws

/-- `AdcSample()`: the state after the conversion that returned `nextSample` (R8). -/
def drawSample (s : State) : State :=
  emit (.adcSample (nextSample s)) { s with adcIn := s.adcIn.tail, adcDraws := s.adcDraws + 1 }

/-- `SR_IMG <- v` (R10). -/
def setImage (v : Half) (s : State) : State := { s with srd := { s.srd with img := v } }

/-- One group of three writes of a transmit, for image bit `i` (R80). -/
def shiftOut (i : Nat) (s : State) : State :=
  lineWrite .srclk false
    (delay .srDelay (lineWrite .srclk true (delay .srDelay (lineWrite .ser (s.srd.img.getLsbD i) s))))

/-- The groups for image bits `n - 1` down to 0 (R80). -/
def shiftOutBits : Nat → State → State
  | 0, s => s
  | n + 1, s => shiftOutBits n (shiftOut n s)

/-- The latch pulse (R80). -/
def latchPulse (s : State) : State := lineWrite .rclk false (delay .srDelay (lineWrite .rclk true s))

/-- `Transmit()` (R80). -/
def transmit (s : State) : State := latchPulse (shiftOutBits 16 s)

/-- `SR_PIN_SER <- a`, `SR_PIN_CLK <- b`, `SR_PIN_LATCH <- c` (R83). -/
def setPins (a b c : Pin) (s : State) : State :=
  { s with srd := { s.srd with pinSer := a, pinClk := b, pinLatch := c } }

/-- `SR_INITED <- 1` (R15). -/
def markSrdInited (s : State) : State := { s with srd := { s.srd with inited := true } }

/-- The steps of SR.INIT before its response, which LED.INIT performs too (R83, R111). -/
def srdInitSteps (a b c : Pin) (s : State) : State :=
  markSrdInited
    (transmit (setImage 0 (configureOut .rclk (configureOut .srclk (configureOut .ser (setPins a b c s))))))

/-- `LED_B <- b` (R16). -/
def setBrightness (b : Vector Byte 16) (s : State) : State := { s with led := { s.led with b := b } }

/-- `LED_DC <- dc` (R17). -/
def setDuty (dc : BitVec dutyWidth) (s : State) : State := { s with led := { s.led with dc := dc } }

/-- `LED_CC <- cc` (R18). -/
def setCadence (cc : BitVec 10) (s : State) : State := { s with led := { s.led with cc := cc } }

/-- `LED_INITED <- 1` (R20). -/
def markLedInited (s : State) : State := { s with led := { s.led with inited := true } }

/-- `K_SUP <- sup` (R25). -/
def setSuppression (sup : Vector Half 16) (s : State) : State := { s with amx := { s.amx with sup := sup } }

/-- Update the tables of channel `ch` with the inverted sample `v`: `K_CUR`, and by the comparator `K_CHG`, `K_REP`
(R144, R146). -/
def storeSample (ch : Fin 16) (v : AdcCode) (s : State) : State :=
  let passes := changePasses s.build.knobThreshold v s.amx.rep[ch]
  { s with
    amx :=
      { s.amx with
        cur := setEntry s.amx.cur ch v
        rep := setEntry s.amx.rep ch (reportedValue passes v s.amx.rep[ch])
        chg := setEntry s.amx.chg ch (changedFlag s.build.flagSticky passes s.amx.chg[ch]) } }

/-- Drive the four select lines to the channel number, `SEL0` first, `SELk` to bit `k` (R69, R144). -/
def selectChannel (ch : Fin 16) (s : State) : State :=
  (List.finRange 4).foldl (fun s k => lineWrite (.sel k) (ch.val.testBit k.val) s) s

/-- `ReadChannel(ch)`: select, settle, sample, invert, compare (R144). -/
def readChannel (ch : Fin 16) (s : State) : State :=
  let settled := delay .settle (selectChannel ch s)
  storeSample ch (invertSample (nextSample settled)) (drawSample settled)

/-- A command that is ignored: no state but `RESP`, which becomes 0 (R46, R171, R123). -/
def ignoreCall (s : State) : State := respond 0 s

/-- The last check of R175: the effect `t` if the unit's ghost flag is set, else uninitialised use (R172, R191). -/
def ifInited (u : Unit3) (flag : Bool) (t : State) : Host.Outcome State Fault Refusal :=
  if flag then .next t else .refused (.uninitializedUse u)

/-- An SR or AMX command with an index: out of range it is ignored, also before INIT; then the ghost flag (R175). -/
def indexedCommand (u : Unit3) (flag : Bool) (a : Byte) (s : State) (effect : Fin 16 → State) :
    Host.Outcome State Fault Refusal :=
  match index16 a with
  | none => .next (ignoreCall s)
  | some i => ifInited u flag (effect i)

/-- A LED command with an index: the space is `0 .. N_LED - 1` (R113, R175, R123). -/
def ledIndexedCommand (a : Byte) (s : State) (effect : Fin 16 → State) : Host.Outcome State Fault Refusal :=
  match ledIndex (backendOf s.build) a with
  | none => .next (ignoreCall s)
  | some i => ifInited .led s.led.inited (effect i)

/-- A LED command without an index: a no-op with `DISABLED` (R123), else subject to the ghost flag (R172). -/
def ledCommand (s : State) (effect : State) : Host.Outcome State Fault Refusal :=
  match backendOf s.build with
  | .disabled => .next (ignoreCall s)
  | .gpio8 => ifInited .led s.led.inited effect
  | .shift16 => ifInited .led s.led.inited effect

end Sys2Proof.Machine
end

