-- ==== Sys2Proof/Machine/AnalogMux.lean ====
section
/-! DEFINITION. The AMX commands (43_analog_mux.md). -/

namespace Sys2Proof.Machine

/-- `AMX_SMOOTH <- f` (R22). -/
def setSmoothing (f : Half) (s : State) : State := { s with amx := { s.amx with smooth := f } }

/-- The tables after AMX.INIT, and its ghost flag (R147, D21). -/
def armChannels (s : State) : State :=
  { s with
    amx :=
      { s.amx with
        cur := Vector.replicate 16 0
        rep := Vector.replicate 16 0
        chg := Vector.replicate 16 false
        sup := Vector.replicate 16 startupCount
        inited := true } }

/-- AMX.INIT: four select lines out and low, the analog input, every channel armed (R147). -/
def execAmxInit (imm16 : Half) (s : State) : Host.Outcome State Fault Refusal :=
  .next
    (respond 0
      (armChannels
        (lineDir .ain .analogIn
          ((List.finRange 4).foldl (fun s k => configureOut (.sel k) s) (setSmoothing imm16 s)))))

/-- AMX.READ (R144). -/
def execAmxRead (a : Byte) (s : State) : Host.Outcome State Fault Refusal :=
  indexedCommand .amx s.amx.inited a s (fun ch => respond 0 (readChannel ch s))

/-- AMX.READALL: channels 0 to 15 in order (R148). -/
def execAmxReadall (s : State) : Host.Outcome State Fault Refusal :=
  ifInited .amx s.amx.inited (respond 0 ((List.finRange 16).foldl (fun s ch => readChannel ch s) s))

/-- AMX.VALUE (R149). -/
def execAmxValue (a : Byte) (s : State) : Host.Outcome State Fault Refusal :=
  indexedCommand .amx s.amx.inited a s (fun ch => respond (s.amx.rep[ch].setWidth 16) s)

/-- AMX.CHANGED (R150). -/
def execAmxChanged (a : Byte) (s : State) : Host.Outcome State Fault Refusal :=
  indexedCommand .amx s.amx.inited a s
    (fun ch =>
      if s.amx.sup[ch] = 0 then respond (boolResp s.amx.chg[ch]) s
      else respond 0 (setSuppression (setEntry s.amx.sup ch (s.amx.sup[ch] - 1)) s))

/-- AMX.RESET (R151). -/
def execAmxReset (a : Byte) (s : State) : Host.Outcome State Fault Refusal :=
  indexedCommand .amx s.amx.inited a s (fun ch => respond 0 (setSuppression (setEntry s.amx.sup ch startupCount) s))

/-- AMX.RESETALL (R152). -/
def execAmxResetall (s : State) : Host.Outcome State Fault Refusal :=
  ifInited .amx s.amx.inited (respond 0 (setSuppression (Vector.replicate 16 startupCount) s))

end Sys2Proof.Machine
end

