-- ==== Sys2Proof/Machine/LogicalMap.lean ====
section
/-! DEFINITION. The MAP command (41_led_map.md). It has no state and needs no INIT (R103, R191). -/

namespace Sys2Proof.Machine

/-- `LED_MAP(i)` (R100). -/
def ledBit (bd : Build) (i : Fin 16) : Fin 16 := bd.ledMap.entries[i]

/-- MAP.L2B: out of range the default is bit 0 (R103). -/
def execMapL2b (a : Byte) (s : State) : Host.Outcome State Fault Refusal :=
  match index16 a with
  | none => .next (ignoreCall s)
  | some i => .next (respond (bitResp (ledBit s.build i)) s)

end Sys2Proof.Machine
end

