-- ==== Sys2Proof/Machine/LedEngine.lean ====
section
/-! DEFINITION. The LED commands (42_led_engine.md), for the three backends. -/

namespace Sys2Proof.Machine

/-- What LED.INIT zeroes, and its ghost flag (R111, R124). -/
def zeroEngine (s : State) : State :=
  markLedInited (setCadence 0 (setDuty 0 (setBrightness (darken (ledIndices (backendOf s.build)) s.led.b) s)))

/-- LED.INIT before its response: with `SHIFT16` the steps of SR.INIT with the build's pins (R111), with `GPIO8` the eight
lines configured as outputs and driven low (R124), with `DISABLED` nothing (R123). -/
def ledInitSteps (s : State) : State :=
  match backendOf s.build with
  | .shift16 => zeroEngine (srdInitSteps s.build.srPins.ser s.build.srPins.clk s.build.srPins.latch s)
  | .gpio8 => zeroEngine ((List.finRange 8).foldl (fun s i => configureOut (.ledpin i) s) s)
  | .disabled => s

/-- LED.INIT (R111, R123, R124). -/
def execLedInit (s : State) : Host.Outcome State Fault Refusal :=
  .next (respond 0 (ledInitSteps s))

/-- `LED_DC <- (LED_DC + 1) mod 2^DUTY_W` (R115). -/
def bumpDuty (s : State) : State := setDuty (s.led.dc + 1) s

/-- The sixteen SetBit steps of a tick: every image bit through the map (R115). -/
def writeFrame (s : State) : State :=
  (List.finRange 16).foldl
    (fun t i => setImage (setBit t.srd.img (ledBit s.build i) (pwmOn (phaseOf s.led.dc) s.led.b[i])) t) s

/-- The eight line writes of a tick of the `GPIO8` backend (R124). -/
def writePins (s : State) : State :=
  (List.finRange 8).foldl
    (fun t i => lineWrite (.ledpin i) (pwmOn (phaseOf s.led.dc) s.led.b[i.castLE (by decide : 8 ≤ 16)]) t) s

/-- One PWM tick before its response (R115, R124). -/
def tickSteps (s : State) : State :=
  match backendOf s.build with
  | .shift16 => transmit (writeFrame (bumpDuty s))
  | .gpio8 => writePins (bumpDuty s)
  | .disabled => s

/-- LED.UPDATE (R115, R123, R124). -/
def execLedUpdate (s : State) : Host.Outcome State Fault Refusal :=
  ledCommand s (respond 0 (tickSteps s))

/-- LED.SET (R116). -/
def execLedSet (a : Byte) (imm16 : Half) (s : State) : Host.Outcome State Fault Refusal :=
  ledIndexedCommand a s (fun i => respond 0 (setBrightness (setEntry s.led.b i (scale imm16)) s))

/-- LED.ADD (R117). -/
def execLedAdd (a : Byte) (imm16 : Half) (s : State) : Host.Outcome State Fault Refusal :=
  ledIndexedCommand a s (fun i => respond 0 (setBrightness (setEntry s.led.b i (addSaturate s.led.b[i] imm16)) s))

/-- LED.SETALL (R118). -/
def execLedSetall (imm16 : Half) (s : State) : Host.Outcome State Fault Refusal :=
  ledCommand s
    (respond 0
      (setBrightness (spread (ledIndices (backendOf s.build)) (setallBudget (backendOf s.build) imm16) s.led.b) s))

/-- LED.SETBIN (R119). -/
def execLedSetbin (c : Byte) (s : State) : Host.Outcome State Fault Refusal :=
  ledCommand s (respond 0 (setBrightness (showByte c s.led.b) s))

/-- LED.ON (R120). -/
def execLedOn (a : Byte) (s : State) : Host.Outcome State Fault Refusal :=
  ledIndexedCommand a s
    (fun i => respond 0
      (setBrightness (setEntry (darken (ledIndices (backendOf s.build)) s.led.b) i (BitVec.ofNat 8 bMax)) s))

/-- LED.CLEAR (R121). -/
def execLedClear (s : State) : Host.Outcome State Fault Refusal :=
  ledCommand s (respond 0 (setBrightness (darken (ledIndices (backendOf s.build)) s.led.b) s))

/-- LED.CONT (R122). -/
def execLedCont (s : State) : Host.Outcome State Fault Refusal :=
  ledCommand s
    (if s.led.cc.toNat + 1 = contPeriod then respond (boolResp true) (setCadence 0 s)
     else respond (boolResp false) (setCadence (s.led.cc + 1) s))

end Sys2Proof.Machine
end

