-- ==== Sys2Proof/Syntax.lean ====
section
/-! DEFINITION. The command set PKC-CMD-1: one constructor per row of spec/opcode_table.json (R62), with the operands of
its format (R61, R63). -/

namespace Sys2Proof

/-- The 24 commands. `a` is an index operand or pin number, `imm16` the 16-bit immediate, `c` a byte (R60). -/
inductive Instr
  /-- SR.INIT serial pin, clock pin, latch pin (R83). -/
  | srInit (a b c : Pin)
  /-- SR.SETBIT bit, on (R84). -/
  | srSetbit (a : Byte) (on : Bool)
  /-- SR.GETBIT bit (R85). -/
  | srGetbit (a : Byte)
  /-- SR.GETSTATE (R86). -/
  | srGetstate
  /-- SR.UPDATE (R87). -/
  | srUpdate
  /-- SR.CLEAR (R88). -/
  | srClear
  /-- SR.SETALL value (R89). -/
  | srSetall (imm16 : Half)
  /-- MAP.L2B logical index (R103). -/
  | mapL2b (a : Byte)
  /-- LED.INIT (R111). -/
  | ledInit
  /-- LED.UPDATE (R115). -/
  | ledUpdate
  /-- LED.SET index, intensity (R116). -/
  | ledSet (a : Byte) (imm16 : Half)
  /-- LED.ADD index, delta (R117). -/
  | ledAdd (a : Byte) (imm16 : Half)
  /-- LED.SETALL intensity (R118). -/
  | ledSetall (imm16 : Half)
  /-- LED.SETBIN byte (R119). -/
  | ledSetbin (c : Byte)
  /-- LED.ON index (R120). -/
  | ledOn (a : Byte)
  /-- LED.CLEAR (R121). -/
  | ledClear
  /-- LED.CONT (R122). -/
  | ledCont
  /-- AMX.INIT smoothing factor (R147). -/
  | amxInit (imm16 : Half)
  /-- AMX.READ channel (R144). -/
  | amxRead (a : Byte)
  /-- AMX.READALL (R148). -/
  | amxReadall
  /-- AMX.VALUE channel (R149). -/
  | amxValue (a : Byte)
  /-- AMX.CHANGED channel (R150). -/
  | amxChanged (a : Byte)
  /-- AMX.RESET channel (R151). -/
  | amxReset (a : Byte)
  /-- AMX.RESETALL (R152). -/
  | amxResetall
deriving DecidableEq, Repr

end Sys2Proof
end

