-- ==== Sys2Proof/WellFormed.lean ====
section
/-! DEFINITION. Which commands are well formed. Every operand value that fits its field is legal (R63; an index out of its
space is a defined no-op, R46), so the one requirement is the one R83 writes beside SR.INIT: "requires a, b, c pairwise
distinct". -/

namespace Sys2Proof

/-- The three pin numbers are pairwise distinct (R83, D31). -/
def pinsDistinct (a b c : Pin) : Bool := a != b && a != c && b != c

/-- A well-formed command. -/
def Instr.wellFormed : Instr → Bool
  | .srInit a b c => pinsDistinct a b c
  | .srSetbit _ _ => true
  | .srGetbit _ => true
  | .srGetstate => true
  | .srUpdate => true
  | .srClear => true
  | .srSetall _ => true
  | .mapL2b _ => true
  | .ledInit => true
  | .ledUpdate => true
  | .ledSet _ _ => true
  | .ledAdd _ _ => true
  | .ledSetall _ => true
  | .ledSetbin _ => true
  | .ledOn _ => true
  | .ledClear => true
  | .ledCont => true
  | .amxInit _ => true
  | .amxRead _ => true
  | .amxReadall => true
  | .amxValue _ => true
  | .amxChanged _ => true
  | .amxReset _ => true
  | .amxResetall => true

end Sys2Proof
end

