-- ==== Sys2Proof/Machine/ShiftRegister.lean ====
section
/-! DEFINITION. The SR commands (40_shift_register.md). -/

namespace Sys2Proof.Machine

/-- SR.INIT (R83); equal pin numbers are refused (U6, D31). -/
def execSrInit (a b c : Pin) (s : State) : Host.Outcome State Fault Refusal :=
  if pinsDistinct a b c then .next (respond 0 (srdInitSteps a b c s)) else .refused .equalPins

/-- SR.SETBIT (R84). -/
def execSrSetbit (a : Byte) (on : Bool) (s : State) : Host.Outcome State Fault Refusal :=
  indexedCommand .srd s.srd.inited a s (fun p => respond 0 (setImage (setBit s.srd.img p on) s))

/-- SR.GETBIT (R85). -/
def execSrGetbit (a : Byte) (s : State) : Host.Outcome State Fault Refusal :=
  indexedCommand .srd s.srd.inited a s (fun p => respond (boolResp (s.srd.img.getLsbD p.val)) s)

/-- SR.GETSTATE (R86). -/
def execSrGetstate (s : State) : Host.Outcome State Fault Refusal :=
  ifInited .srd s.srd.inited (respond s.srd.img s)

/-- SR.UPDATE (R87). -/
def execSrUpdate (s : State) : Host.Outcome State Fault Refusal :=
  ifInited .srd s.srd.inited (respond 0 (transmit s))

/-- SR.CLEAR (R88). -/
def execSrClear (s : State) : Host.Outcome State Fault Refusal :=
  ifInited .srd s.srd.inited (respond 0 (transmit (setImage 0 s)))

/-- SR.SETALL (R89). -/
def execSrSetall (imm16 : Half) (s : State) : Host.Outcome State Fault Refusal :=
  ifInited .srd s.srd.inited (respond 0 (transmit (setImage imm16 s)))

end Sys2Proof.Machine
end

