-- ==== Sys2Proof/Machine/Dispatch.lean ====
section
/-! DEFINITION. One arm per command: a direct call of its meaning. -/

namespace Sys2Proof.Machine

def exec (i : Instr) (s : State) : Host.Outcome State Fault Refusal :=
  match i with
  | .srInit a b c => Sys2Proof.Machine.execSrInit a b c s
  | .srSetbit a on => Sys2Proof.Machine.execSrSetbit a on s
  | .srGetbit a => Sys2Proof.Machine.execSrGetbit a s
  | .srGetstate => Sys2Proof.Machine.execSrGetstate s
  | .srUpdate => Sys2Proof.Machine.execSrUpdate s
  | .srClear => Sys2Proof.Machine.execSrClear s
  | .srSetall imm16 => Sys2Proof.Machine.execSrSetall imm16 s
  | .mapL2b a => Sys2Proof.Machine.execMapL2b a s
  | .ledInit => Sys2Proof.Machine.execLedInit s
  | .ledUpdate => Sys2Proof.Machine.execLedUpdate s
  | .ledSet a imm16 => Sys2Proof.Machine.execLedSet a imm16 s
  | .ledAdd a imm16 => Sys2Proof.Machine.execLedAdd a imm16 s
  | .ledSetall imm16 => Sys2Proof.Machine.execLedSetall imm16 s
  | .ledSetbin c => Sys2Proof.Machine.execLedSetbin c s
  | .ledOn a => Sys2Proof.Machine.execLedOn a s
  | .ledClear => Sys2Proof.Machine.execLedClear s
  | .ledCont => Sys2Proof.Machine.execLedCont s
  | .amxInit imm16 => Sys2Proof.Machine.execAmxInit imm16 s
  | .amxRead a => Sys2Proof.Machine.execAmxRead a s
  | .amxReadall => Sys2Proof.Machine.execAmxReadall s
  | .amxValue a => Sys2Proof.Machine.execAmxValue a s
  | .amxChanged a => Sys2Proof.Machine.execAmxChanged a s
  | .amxReset a => Sys2Proof.Machine.execAmxReset a s
  | .amxResetall => Sys2Proof.Machine.execAmxResetall s

end Sys2Proof.Machine
end

