-- ==== Sys2Proof/Decode.lean ====
section
/-! DEFINITION. The command word (R60 to R66): fields, the decoder, then the encoder, both from the table of R62. A decoder
"reads `W[31:24]` and nothing else to find the command" (R66); a field a format does not use is ignored (R65 b). -/

namespace Sys2Proof

/-- Why a word is no command. -/
inductive DecodeError
  /-- The opcode is not in the map of R62: an illegal word (R65 a). -/
  | illegalOpcode (op : Byte)
deriving DecidableEq, Repr

/-- `W[31:24]` (R60). -/
def opField (w : CmdWord) : Byte := w.extractLsb' 24 8
/-- `W[23:16]` (R60). -/
def aField (w : CmdWord) : Byte := w.extractLsb' 16 8
/-- `W[15:8]` (R60). -/
def bField (w : CmdWord) : Byte := w.extractLsb' 8 8
/-- `W[7:0]` (R60). -/
def cField (w : CmdWord) : Byte := w.extractLsb' 0 8
/-- `W[15:0]` (R60). -/
def immField (w : CmdWord) : Half := w.extractLsb' 0 16
/-- `on = W[0]` (R63). -/
def onField (w : CmdWord) : Bool := w.getLsbD 0

/-- The command a word stands for (R62), or why it is illegal (R65). -/
def decode (w : CmdWord) : Except DecodeError Instr :=
  match opField w with
  | 0x10#8 => .ok (.srInit (aField w) (bField w) (cField w))
  | 0x11#8 => .ok (.srSetbit (aField w) (onField w))
  | 0x12#8 => .ok (.srGetbit (aField w))
  | 0x13#8 => .ok .srGetstate
  | 0x14#8 => .ok .srUpdate
  | 0x15#8 => .ok .srClear
  | 0x16#8 => .ok (.srSetall (immField w))
  | 0x20#8 => .ok (.mapL2b (aField w))
  | 0x30#8 => .ok .ledInit
  | 0x31#8 => .ok .ledUpdate
  | 0x32#8 => .ok (.ledSet (aField w) (immField w))
  | 0x33#8 => .ok (.ledAdd (aField w) (immField w))
  | 0x34#8 => .ok (.ledSetall (immField w))
  | 0x35#8 => .ok (.ledSetbin (cField w))
  | 0x36#8 => .ok (.ledOn (aField w))
  | 0x37#8 => .ok .ledClear
  | 0x38#8 => .ok .ledCont
  | 0x40#8 => .ok (.amxInit (immField w))
  | 0x41#8 => .ok (.amxRead (aField w))
  | 0x42#8 => .ok .amxReadall
  | 0x43#8 => .ok (.amxValue (aField w))
  | 0x44#8 => .ok (.amxChanged (aField w))
  | 0x45#8 => .ok (.amxReset (aField w))
  | 0x46#8 => .ok .amxResetall
  | op => .error (.illegalOpcode op)

/-- The instruction the decoder reads from a word given as the number `w` of `nbits` bits: the block's words are single
32-bit parallel words, so bit i of `w` is `W[i]` (R60, R45 d). -/
def decodeTableWord (nbits w : Nat) : Option Instr :=
  match decode (BitVec.ofNat 32 (w % 2 ^ nbits)) with
  | .ok i => some i
  | .error _ => none

/-- The opcode of each command (R62). -/
def opcodeOf : Instr → Byte
  | .srInit _ _ _ => 0x10#8
  | .srSetbit _ _ => 0x11#8
  | .srGetbit _ => 0x12#8
  | .srGetstate => 0x13#8
  | .srUpdate => 0x14#8
  | .srClear => 0x15#8
  | .srSetall _ => 0x16#8
  | .mapL2b _ => 0x20#8
  | .ledInit => 0x30#8
  | .ledUpdate => 0x31#8
  | .ledSet _ _ => 0x32#8
  | .ledAdd _ _ => 0x33#8
  | .ledSetall _ => 0x34#8
  | .ledSetbin _ => 0x35#8
  | .ledOn _ => 0x36#8
  | .ledClear => 0x37#8
  | .ledCont => 0x38#8
  | .amxInit _ => 0x40#8
  | .amxRead _ => 0x41#8
  | .amxReadall => 0x42#8
  | .amxValue _ => 0x43#8
  | .amxChanged _ => 0x44#8
  | .amxReset _ => 0x45#8
  | .amxResetall => 0x46#8

/-- A word of format P (R61), from which the other formats are made by zero fields. -/
def wordOf (op a b c : Byte) : CmdWord :=
  (op.setWidth 32 <<< 24) ||| (a.setWidth 32 <<< 16) ||| (b.setWidth 32 <<< 8) ||| c.setWidth 32
/-- A word of format AI (R61). -/
def wordImm (op a : Byte) (imm16 : Half) : CmdWord :=
  (op.setWidth 32 <<< 24) ||| (a.setWidth 32 <<< 16) ||| imm16.setWidth 32

/-- The word the assembler writes for a command: reserved fields zero (R61, R65 b). -/
def encode (i : Instr) : CmdWord :=
  match i with
  | .srInit a b c => wordOf (opcodeOf i) a b c
  | .srSetbit a on => wordOf (opcodeOf i) a 0 ((BitVec.ofBool on).setWidth 8)
  | .srGetbit a => wordOf (opcodeOf i) a 0 0
  | .srGetstate => wordOf (opcodeOf i) 0 0 0
  | .srUpdate => wordOf (opcodeOf i) 0 0 0
  | .srClear => wordOf (opcodeOf i) 0 0 0
  | .srSetall imm16 => wordImm (opcodeOf i) 0 imm16
  | .mapL2b a => wordOf (opcodeOf i) a 0 0
  | .ledInit => wordOf (opcodeOf i) 0 0 0
  | .ledUpdate => wordOf (opcodeOf i) 0 0 0
  | .ledSet a imm16 => wordImm (opcodeOf i) a imm16
  | .ledAdd a imm16 => wordImm (opcodeOf i) a imm16
  | .ledSetall imm16 => wordImm (opcodeOf i) 0 imm16
  | .ledSetbin c => wordOf (opcodeOf i) 0 0 c
  | .ledOn a => wordOf (opcodeOf i) a 0 0
  | .ledClear => wordOf (opcodeOf i) 0 0 0
  | .ledCont => wordOf (opcodeOf i) 0 0 0
  | .amxInit imm16 => wordImm (opcodeOf i) 0 imm16
  | .amxRead a => wordOf (opcodeOf i) a 0 0
  | .amxReadall => wordOf (opcodeOf i) 0 0 0
  | .amxValue a => wordOf (opcodeOf i) a 0 0
  | .amxChanged a => wordOf (opcodeOf i) a 0 0
  | .amxReset a => wordOf (opcodeOf i) a 0 0
  | .amxResetall => wordOf (opcodeOf i) 0 0 0

/-- The bits of the word a command's format uses (R61): its opcode and its operand fields. -/
def usedBits : Instr → CmdWord
  | .srInit _ _ _ => 0xFFFFFFFF
  | .srSetbit _ _ => 0xFFFF0001
  | .srGetbit _ => 0xFFFF0000
  | .srGetstate => 0xFF000000
  | .srUpdate => 0xFF000000
  | .srClear => 0xFF000000
  | .srSetall _ => 0xFF00FFFF
  | .mapL2b _ => 0xFFFF0000
  | .ledInit => 0xFF000000
  | .ledUpdate => 0xFF000000
  | .ledSet _ _ => 0xFFFFFFFF
  | .ledAdd _ _ => 0xFFFFFFFF
  | .ledSetall _ => 0xFF00FFFF
  | .ledSetbin _ => 0xFF0000FF
  | .ledOn _ => 0xFFFF0000
  | .ledClear => 0xFF000000
  | .ledCont => 0xFF000000
  | .amxInit _ => 0xFF00FFFF
  | .amxRead _ => 0xFFFF0000
  | .amxReadall => 0xFF000000
  | .amxValue _ => 0xFFFF0000
  | .amxChanged _ => 0xFFFF0000
  | .amxReset _ => 0xFFFF0000
  | .amxResetall => 0xFF000000

end Sys2Proof
end

