-- ==== Sys2Proof/Machine/Port.lean ====
section
/-! DEFINITION. The command port: how a word is presented and taken, and what an illegal word does (R60, R65, R52). -/

namespace Sys2Proof.Machine

/-- The host presents a word, to be taken next. -/
def presentWord (w : CmdWord) (s : State) : State := { s with cmds := w :: s.cmds }

/-- The word the block takes next and the state once it is taken: it "keeps no copy of a command" (R52). -/
def takeWord (s : State) : Option (CmdWord × State) :=
  match s.cmds with
  | [] => none
  | w :: rest => some (w, { s with cmds := rest })

/-- An illegal word "changes no state except `RESP <- 0` and emits no event"; the run is marked refused (R65 a, U14;
log 10). -/
def illegalWord (s : State) : State := { ignoreCall s with runRefused := true }

/-- The bits of an instruction of `nbits` bits, as the word presented on the port. -/
def portWord (nbits w : Nat) : CmdWord := BitVec.ofNat 32 (w % 2 ^ nbits)

end Sys2Proof.Machine
end

