-- ==== Sys2Proof/Machine/Step.lean ====
section
/-! DEFINITION. A step is one whole command (R5): the block takes the next word the host has issued, decodes it and executes
it. With no word issued the block does nothing (R5, R174; log 4). -/

namespace Sys2Proof.Machine

/-- Execute one word: the command it stands for, or the effect of an illegal word (R65, R175). -/
def execWord (w : CmdWord) (s : State) : Host.Outcome State Fault Refusal :=
  match decode w with
  | .ok i => exec i s
  | .error _ => .next (illegalWord s)

/-- One step of the block. -/
def step (s : State) : Host.Outcome State Fault Refusal :=
  match takeWord s with
  | none => .next s
  | some (w, t) => execWord w t

/-- The host presents the instruction's word, so that the next step takes it (log 4). -/
def State.withFetchWord (s : State) (nbits w : Nat) : State := presentWord (portWord nbits w) s

end Sys2Proof.Machine
end

