-- ==== Sys2Proof/Safety.lean ====
section
/-! DEFINITION. What claims speak of: which LEDs are lit, what a receiver on the serial lines sees, which channel is
routed, how many events of a kind a command emits; what a safe state is; the invariant of the block; a command repeated. -/

namespace Sys2Proof.Machine

/-- `LED_LIT(i)`, a derived view (R21): the chain's output through the map with `SHIFT16`, the line level with `GPIO8`;
with `DISABLED`, and for an index that is no LED of the backend, no LED is lit. -/
def ledLit (s : State) (i : Fin 16) : Bool :=
  match backendOf s.build with
  | .shift16 => s.chain.q.getLsbD (ledBit s.build i).val
  | .gpio8 => if h : i.val < 8 then s.led.pinLevel[i.val]'h else false
  | .disabled => false

/-- The number of the multiplexer input routed to `AIN` (R141). -/
def routedChannel (s : State) : Nat :=
  (s.amx.sel[3]).toNat * 8 + (s.amx.sel[2]).toNat * 4 + (s.amx.sel[1]).toNat * 2 + (s.amx.sel[0]).toNat

/-- A `LineWrite` event. -/
def Event.isLineWrite : Event → Bool
  | .lineWrite _ _ _ => true
  | .lineDir _ _ _ => false
  | .delay _ _ => false
  | .adcSample _ => false

/-- A `LineDir` event. -/
def Event.isLineDir : Event → Bool
  | .lineDir _ _ _ => true
  | .lineWrite _ _ _ => false
  | .delay _ _ => false
  | .adcSample _ => false

/-- A `Delay` event. -/
def Event.isDelay : Event → Bool
  | .delay _ _ => true
  | .lineDir _ _ _ => false
  | .lineWrite _ _ _ => false
  | .adcSample _ => false

/-- An `AdcSample` event. -/
def Event.isAdcSample : Event → Bool
  | .adcSample _ => true
  | .lineDir _ _ _ => false
  | .lineWrite _ _ _ => false
  | .delay _ _ => false

/-- How many events of a trace are of each kind: `LineDir`, `LineWrite`, `Delay`, `AdcSample` (R184, R213). -/
def eventCounts (es : List Event) : Nat × Nat × Nat × Nat :=
  (es.countP Event.isLineDir, es.countP Event.isLineWrite, es.countP Event.isDelay, es.countP Event.isAdcSample)

/-- The pins and the delay length a transmit is labelled with. -/
structure SrdLabels where
  ser : Pin
  clk : Pin
  latch : Pin
  wait : Nat
deriving DecidableEq, Repr

/-- The labels of a state. -/
def srdLabels (s : State) : SrdLabels := ⟨s.srd.pinSer, s.srd.pinClk, s.srd.pinLatch, s.build.tSrDelay⟩

/-- The three events of one bit of a transmit with their delays (R80). -/
def bitEvents (p : SrdLabels) (level : Bool) : List Event :=
  [.lineWrite .ser p.ser level, .delay .srDelay p.wait, .lineWrite .srclk p.clk true, .delay .srDelay p.wait,
    .lineWrite .srclk p.clk false]

/-- The events of the groups for image bits `n - 1` down to 0 (R80). -/
def bitsEvents (p : SrdLabels) (img : Half) : Nat → List Event
  | 0 => []
  | n + 1 => bitEvents p (img.getLsbD n) ++ bitsEvents p img n

/-- The events of the latch pulse (R80). -/
def latchEvents (p : SrdLabels) : List Event :=
  [.lineWrite .rclk p.latch true, .delay .srDelay p.wait, .lineWrite .rclk p.latch false]

/-- The events of one `Transmit()` of an image, in order (R80). -/
def transmitEvents (p : SrdLabels) (img : Half) : List Event := bitsEvents p img 16 ++ latchEvents p

/-- A line configured as an output and driven low (R83). -/
def configureEvents (l : Line) (pin : Pin) : List Event := [.lineDir l pin .out, .lineWrite l pin false]

/-- The events of SR.INIT on pins `a`, `b`, `c` (R83). -/
def srdInitEvents (p : SrdLabels) : List Event :=
  configureEvents .ser p.ser ++ configureEvents .srclk p.clk ++ configureEvents .rclk p.latch ++ transmitEvents p 0

/-- The events of LED.INIT with `GPIO8` (R124). -/
def pinsInitEvents (bd : Build) : List Event :=
  (List.finRange 8).flatMap (fun i => configureEvents (.ledpin i) bd.ledGpioPins[i])

/-- The events of a tick with `GPIO8`, for the levels written to the eight lines (R124). -/
def pinsTickEvents (bd : Build) (levels : Fin 8 → Bool) : List Event :=
  (List.finRange 8).map (fun i => .lineWrite (.ledpin i) bd.ledGpioPins[i] (levels i))

/-- The events of AMX.INIT (R147). -/
def amxInitEvents (bd : Build) : List Event :=
  (List.finRange 4).flatMap (fun k => configureEvents (.sel k) bd.muxSelPins[k]) ++
    [.lineDir .ain bd.muxAinPin .analogIn]

/-- The four select writes of a read, `SEL0` first (R144). -/
def selectEvents (bd : Build) (ch : Fin 16) : List Event :=
  (List.finRange 4).map (fun k => .lineWrite (.sel k) bd.muxSelPins[k] (ch.val.testBit k.val))

/-- The events of one read: select, settle, sample (R144). -/
def readEvents (bd : Build) (ch : Fin 16) (raw : AdcCode) : List Event :=
  selectEvents bd ch ++ [.delay .settle bd.tSettle, .adcSample raw]

/-- The raw code of the `k`-th sample drawn from a state on, counting from 0 (R143; log 5). -/
def sampleAt (s : State) (k : Nat) : AdcCode := (s.adcIn[k]?).getD (Config.adcSample (s.adcDraws + k))

/-- What a receiver of the serial frame has seen: the level of `SER`, the level of `SRCLK`, the samples taken (R68). -/
structure Receiver where
  ser : Bool
  srclk : Bool
  samples : List Bool
deriving DecidableEq, Repr

/-- The receiver "samples `SER` at each rise of `SRCLK`" (R68). -/
def receive (r : Receiver) (e : Event) : Receiver :=
  match e with
  | .lineWrite .ser _ level => { r with ser := level }
  | .lineWrite .srclk _ level =>
    { r with srclk := level, samples := if level && !r.srclk then r.samples ++ [r.ser] else r.samples }
  | _ => r

/-- The samples a receiver that starts with both lines low collects from a list of events. -/
def receivedSamples (es : List Event) : List Bool := (es.foldl receive ⟨false, false, []⟩).samples

/-- The image reconstructed from the samples: `s1 * 2^15 + ... + s16 * 2^0` for sixteen of them (R68). -/
def frameValue (samples : List Bool) : Nat := samples.foldl (fun n b => 2 * n + b.toNat) 0

/-- The events a command adds to the trace. -/
def newEvents (before after : State) : List Event := after.trace.drop before.trace.length

/-- How many `LineDir`, `LineWrite`, `Delay`, `AdcSample` events each command emits with `SHIFT16` (R184; the delays of a
transmit: R213). -/
def expectedCounts : Instr → Nat × Nat × Nat × Nat
  | .srInit _ _ _ => (3, 53, 33, 0)
  | .srSetbit _ _ => (0, 0, 0, 0)
  | .srGetbit _ => (0, 0, 0, 0)
  | .srGetstate => (0, 0, 0, 0)
  | .srUpdate => (0, 50, 33, 0)
  | .srClear => (0, 50, 33, 0)
  | .srSetall _ => (0, 50, 33, 0)
  | .mapL2b _ => (0, 0, 0, 0)
  | .ledInit => (3, 53, 33, 0)
  | .ledUpdate => (0, 50, 33, 0)
  | .ledSet _ _ => (0, 0, 0, 0)
  | .ledAdd _ _ => (0, 0, 0, 0)
  | .ledSetall _ => (0, 0, 0, 0)
  | .ledSetbin _ => (0, 0, 0, 0)
  | .ledOn _ => (0, 0, 0, 0)
  | .ledClear => (0, 0, 0, 0)
  | .ledCont => (0, 0, 0, 0)
  | .amxInit _ => (5, 4, 0, 0)
  | .amxRead a => if a.toNat < 16 then (0, 4, 1, 1) else (0, 0, 0, 0)
  | .amxReadall => (0, 64, 16, 16)
  | .amxValue _ => (0, 0, 0, 0)
  | .amxChanged _ => (0, 0, 0, 0)
  | .amxReset _ => (0, 0, 0, 0)
  | .amxResetall => (0, 0, 0, 0)

/-- The unit a command belongs to (R62); the MAP has no state. -/
def unitOf : Instr → Option Unit3
  | .srInit _ _ _ => some .srd
  | .srSetbit _ _ => some .srd
  | .srGetbit _ => some .srd
  | .srGetstate => some .srd
  | .srUpdate => some .srd
  | .srClear => some .srd
  | .srSetall _ => some .srd
  | .mapL2b _ => none
  | .ledInit => some .led
  | .ledUpdate => some .led
  | .ledSet _ _ => some .led
  | .ledAdd _ _ => some .led
  | .ledSetall _ => some .led
  | .ledSetbin _ => some .led
  | .ledOn _ => some .led
  | .ledClear => some .led
  | .ledCont => some .led
  | .amxInit _ => some .amx
  | .amxRead _ => some .amx
  | .amxReadall => some .amx
  | .amxValue _ => some .amx
  | .amxChanged _ => some .amx
  | .amxReset _ => some .amx
  | .amxResetall => some .amx

/-- The ghost flag of a unit (R15, R20, R29). -/
def ghostFlag (s : State) : Unit3 → Bool
  | .srd => s.srd.inited
  | .led => s.led.inited
  | .amx => s.amx.inited

/-- The unit whose INIT must have been issued for the command to be defined in a state (the table of R191): none for the
INITs, MAP.L2B, a range violation, and any LED command with `DISABLED`. -/
def neededUnit (s : State) : Instr → Option Unit3
  | .srInit _ _ _ => none
  | .srSetbit a _ => if a.toNat < 16 then some .srd else none
  | .srGetbit a => if a.toNat < 16 then some .srd else none
  | .srGetstate => some .srd
  | .srUpdate => some .srd
  | .srClear => some .srd
  | .srSetall _ => some .srd
  | .mapL2b _ => none
  | .ledInit => none
  | .ledUpdate => if backendOf s.build = .disabled then none else some .led
  | .ledSet a _ => if a.toNat < nLed (backendOf s.build) then some .led else none
  | .ledAdd a _ => if a.toNat < nLed (backendOf s.build) then some .led else none
  | .ledSetall _ => if backendOf s.build = .disabled then none else some .led
  | .ledSetbin _ => if backendOf s.build = .disabled then none else some .led
  | .ledOn a => if a.toNat < nLed (backendOf s.build) then some .led else none
  | .ledClear => if backendOf s.build = .disabled then none else some .led
  | .ledCont => if backendOf s.build = .disabled then none else some .led
  | .amxInit _ => none
  | .amxRead a => if a.toNat < 16 then some .amx else none
  | .amxReadall => some .amx
  | .amxValue a => if a.toNat < 16 then some .amx else none
  | .amxChanged a => if a.toNat < 16 then some .amx else none
  | .amxReset a => if a.toNat < 16 then some .amx else none
  | .amxResetall => some .amx

/-- The commands R48 calls idempotent that emit no event. -/
def quietIdempotent : Instr → Bool
  | .srSetbit _ _ => true
  | .srGetbit _ => true
  | .srGetstate => true
  | .mapL2b _ => true
  | .ledSet _ _ => true
  | .ledOn _ => true
  | .ledSetall _ => true
  | .ledSetbin _ => true
  | .ledClear => true
  | .amxValue _ => true
  | .amxReset _ => true
  | .amxResetall => true
  | .srInit _ _ _ => false
  | .srUpdate => false
  | .srClear => false
  | .srSetall _ => false
  | .ledInit => false
  | .ledUpdate => false
  | .ledAdd _ _ => false
  | .ledCont => false
  | .amxInit _ => false
  | .amxRead _ => false
  | .amxReadall => false
  | .amxChanged _ => false

/-- The first `k` shift pulses of a transmit, for image bits 15 down (R80, R82). -/
def firstPulses (k : Nat) (s : State) : State := (List.range k).foldl (fun t j => shiftOut (15 - j) t) s

/-- A safe state: the run has issued no illegal word (R65, U14). A run is safe as long as no step refuses. -/
def State.Safe (s : State) : Prop := s.runRefused = false

/-- What holds between commands in every run from power-on. -/
structure State.Inv (s : State) : Prop where
  /-- The two clock lines rest low (R13). -/
  clocks_low : s.srd.inited = true → s.srd.lSrclk = false ∧ s.srd.lRclk = false
  /-- The three SRD lines are outputs (R12). -/
  srd_out : s.srd.inited = true → s.srd.dirSer = .out ∧ s.srd.dirSrclk = .out ∧ s.srd.dirRclk = .out
  /-- The three SRD pins are pairwise distinct (R83). -/
  pins_distinct : s.srd.inited = true → pinsDistinct s.srd.pinSer s.srd.pinClk s.srd.pinLatch = true
  /-- `CH_SHIFT = CH_Q` (R91). -/
  chain_latched : s.srd.inited = true → s.chain.shift = s.chain.q
  /-- No SRD line is configured before SR.INIT (R12). -/
  srd_unconfigured : s.srd.inited = false →
    s.srd.dirSer = .notConfigured ∧ s.srd.dirSrclk = .notConfigured ∧ s.srd.dirRclk = .notConfigured
  /-- A disabled engine is never initialised (R123). -/
  led_enabled : s.led.inited = true → backendOf s.build ≠ .disabled
  /-- With `SHIFT16` LED.INIT has initialised the SRD (R34, R111). -/
  led_srd : s.led.inited = true → backendOf s.build = .shift16 → s.srd.inited = true
  /-- `LED_CC` is 0 to 999 (R18). -/
  cadence_range : s.led.inited = true → s.led.cc.toNat < contPeriod
  /-- With `GPIO8` the eight LED lines are outputs (R19, R124). -/
  led_out : s.led.inited = true → backendOf s.build = .gpio8 → ∀ i : Fin 8, s.led.pinDir[i] = .out
  /-- `K_SUP` is 0 to `STARTUP_COUNT` (R25). -/
  suppression_range : s.amx.inited = true → ∀ ch : Fin 16, s.amx.sup[ch].toNat ≤ startupCount.toNat
  /-- The select lines are outputs and the analog input is configured (R27). -/
  amx_out : s.amx.inited = true → (∀ k : Fin 4, s.amx.selDir[k] = .out) ∧ s.amx.ainDir = .analogIn

/-- A command issued `n` times in a row; `none` if one of them is refused. -/
def repeated (i : Instr) : Nat → State → Option State
  | 0, s => some s
  | n + 1, s =>
    match exec i s with
    | .next t => repeated i n t
    | .fault _ => none
    | .refused _ => none

/-- The command has been issued `n` times and one of the observations of the last state holds. -/
def afterRepeated (i : Instr) (n : Nat) (s : State) (holds : State → Bool) : Bool :=
  match repeated i n s with
  | some t => holds t
  | none => false

end Sys2Proof.Machine
end

