-- ==== Sys2Proof/Certificates/Slice0/Obligations.lean ====
section
/-! DEFINITION. The statements for the provers, from the numbered rules of spec/. Where a statement speaks of a build, it
holds for every build: State carries it and no statement rests on the reset state's (log 2, log 3). -/

open Sys2Proof Sys2Proof.Machine

/-- Every command, with every operand value, is read back from the word the encoder writes for it (R60 to R63). -/
def Obligations.DecodeInvertsEncode : Prop :=
  ∀ i : Instr, decode (encode i) = .ok i

/-- A word that decodes keeps exactly the bits its format uses, and runs as the same word with its reserved bits zeroed
(R61, R65 b). -/
def Obligations.ReservedFieldsAreIgnored : Prop :=
  ∀ (w : CmdWord) (i : Instr), decode w = .ok i →
    encode i = w &&& usedBits i ∧ ∀ s : State, execWord w s = execWord (w &&& usedBits i) s

/-- A word is legal exactly when its top byte is one of the 24 opcodes of the map; any other is illegal and named (R62, R65
a). -/
def Obligations.LegalOpcodesAreTheMap : Prop :=
  ∀ w : CmdWord,
    let op := w.toNat / 2 ^ 24
    ((∃ i : Instr, decode w = .ok i) ↔
        (0x10 ≤ op ∧ op ≤ 0x16) ∨ op = 0x20 ∨ (0x30 ≤ op ∧ op ≤ 0x38) ∨ (0x40 ≤ op ∧ op ≤ 0x46)) ∧
      ((¬ ∃ i : Instr, decode w = .ok i) → decode w = .error (.illegalOpcode (BitVec.ofNat 8 op)))

/-- Lines of the assembler's table (R67) and the reserved-bit vector of 95_test_vectors.md 2.2 decode as written. -/
def Obligations.SampleWordsDecode : Prop :=
  decode 0x10020304 = .ok (.srInit 2 3 4) ∧ decode 0x11050001 = .ok (.srSetbit 5 true) ∧
  decode 0x1103FFFF = .ok (.srSetbit 3 true) ∧ decode 0x1600ABCD = .ok (.srSetall 0xABCD) ∧
  decode 0x20070000 = .ok (.mapL2b 7) ∧ decode 0x320703E8 = .ok (.ledSet 7 1000) ∧
  decode 0x350000B0 = .ok (.ledSetbin 0xB0) ∧ decode 0x41030000 = .ok (.amxRead 3)

/-- A step takes the next issued word and executes the command it stands for, in the state without that word. That a word
waits in `cmds` is the model's port (log 4). -/
def Obligations.StepRunsDecodedCommand : Prop :=
  ∀ (s : State) (w : CmdWord) (rest : List CmdWord) (i : Instr),
    s.cmds = w :: rest → decode w = .ok i → step s = exec i { s with cmds := rest }

/-- An illegal word changes no state except `RESP`, which becomes 0, and emits no event (R65 a). The mark `runRefused` is
the model's (log 10). -/
def Obligations.IllegalWordOnlyClearsResponse : Prop :=
  ∀ (s : State) (w : CmdWord) (rest : List CmdWord),
    s.cmds = w :: rest → (∀ i : Instr, decode w ≠ .ok i) →
      step s = .next { s with cmds := rest, resp := 0, runRefused := true }

/-- With no word issued a step changes nothing (the model's reading of R5 and R174, log 4). -/
def Obligations.IdleStepChangesNothing : Prop :=
  ∀ s : State, s.cmds = [] → step s = .next s

/-- The ten commands with an index write nothing but `RESP`, which becomes 0, and emit nothing when the index is out of
its space, in every state (R46). -/
def Obligations.OutOfRangeIndexIsIgnored : Prop :=
  ∀ (s : State) (a : Byte) (on : Bool) (x : Half),
    (16 ≤ a.toNat →
      exec (.srSetbit a on) s = .next { s with resp := 0 } ∧ exec (.srGetbit a) s = .next { s with resp := 0 } ∧
      exec (.mapL2b a) s = .next { s with resp := 0 } ∧ exec (.amxRead a) s = .next { s with resp := 0 } ∧
      exec (.amxValue a) s = .next { s with resp := 0 } ∧ exec (.amxChanged a) s = .next { s with resp := 0 } ∧
      exec (.amxReset a) s = .next { s with resp := 0 }) ∧
    (nLed (backendOf s.build) ≤ a.toNat →
      exec (.ledSet a x) s = .next { s with resp := 0 } ∧ exec (.ledAdd a x) s = .next { s with resp := 0 } ∧
      exec (.ledOn a) s = .next { s with resp := 0 })

/-- With `BACKEND = DISABLED` each of the nine LED commands changes no state, emits nothing and responds 0, in every state
(R123). -/
def Obligations.DisabledBackendIgnoresLedCommands : Prop :=
  ∀ (i : Instr) (s : State), unitOf i = some .led → backendOf s.build = .disabled →
    exec i s = .next { s with resp := 0 }

/-- When a command is defined and when it is refused: the table of R191, for every command and every state. -/
def Obligations.CommandsCompleteExactlyWhenInitialised : Prop :=
  ∀ (i : Instr) (s : State), i.wellFormed = true →
    match neededUnit s i with
    | none => ∃ t, exec i s = .next t
    | some u =>
      (ghostFlag s u = true → ∃ t, exec i s = .next t) ∧
      (ghostFlag s u = false → exec i s = .refused (.uninitializedUse u))

/-- SR.INIT from any state: the pins stored, the three lines configured and low, image, shift stage and outputs zero, 3
`LineDir` and 53 `LineWrite` in the order given, nothing else changed (R83). -/
def Obligations.SrInitReachesKnownState : Prop :=
  ∀ (a b c : Pin) (s : State), a ≠ b → a ≠ c → b ≠ c →
    exec (.srInit a b c) s = .next
      { s with
        srd :=
          { img := 0, pinSer := a, pinClk := b, pinLatch := c, dirSer := .out, dirSrclk := .out, dirRclk := .out
            lSer := false, lSrclk := false, lRclk := false, inited := true }
        chain := { shift := 0, q := 0 }
        trace := s.trace ++ srdInitEvents ⟨a, b, c, s.build.tSrDelay⟩
        resp := 0 } ∧
    eventCounts (srdInitEvents ⟨a, b, c, s.build.tSrDelay⟩) = (3, 53, 33, 0)

/-- SR.INIT with two equal pin numbers is refused, in every state (R83, U6). -/
def Obligations.SrInitEqualPinsRefused : Prop :=
  ∀ (a b c : Pin) (s : State), a = b ∨ a = c ∨ b = c → exec (.srInit a b c) s = .refused .equalPins

/-- SR.SETBIT writes the one image bit and `RESP`; no line, no event, no chain (R84). -/
def Obligations.SetbitWritesOneImageBit : Prop :=
  ∀ (s : State) (a : Byte) (on : Bool), s.srd.inited = true → a.toNat < 16 →
    ∃ t, exec (.srSetbit a on) s = .next t ∧
      t = { s with srd := { s.srd with img := t.srd.img }, resp := 0 } ∧
      ∀ q, q < 16 → t.srd.img.getLsbD q = if q = a.toNat then on else s.srd.img.getLsbD q

/-- SR.GETBIT responds the image bit and SR.GETSTATE the image; neither changes anything else (R85, R86). -/
def Obligations.ImageQueriesRespond : Prop :=
  ∀ (s : State), s.srd.inited = true →
    (∀ a : Byte, a.toNat < 16 →
      exec (.srGetbit a) s = .next { s with resp := if s.srd.img.getLsbD a.toNat then 1 else 0 }) ∧
    exec .srGetstate s = .next { s with resp := s.srd.img }

/-- After SR.SETBIT p, v SR.GETBIT p responds v, every other SR.GETBIT responds what it did before, and SR.GETSTATE
responds the sum of the powers of the bits that are set (R90). -/
def Obligations.SetbitGetbitRoundTrip : Prop :=
  ∀ (s : State) (p : Byte) (v : Bool), s.srd.inited = true → p.toNat < 16 →
    ∃ t, exec (.srSetbit p v) s = .next t ∧
      (∃ u, exec (.srGetbit p) t = .next u ∧ u.resp = if v then 1 else 0) ∧
      (∀ q : Byte, q.toNat < 16 → q ≠ p →
        ∃ u u', exec (.srGetbit q) t = .next u ∧ exec (.srGetbit q) s = .next u' ∧ u.resp = u'.resp) ∧
      ∃ u, exec .srGetstate t = .next u ∧
        u.resp.toNat = ((List.range 16).map (fun k => if t.srd.img.getLsbD k then 2 ^ k else 0)).sum

/-- A transmit from low clock lines: after the k-th shift pulse the low k bits of the shift stage are the top k bits of the
image and the outputs are still the old ones; at the end both are the image (R82). -/
def Obligations.TransmitMovesImageToOutputs : Prop :=
  ∀ s : State, s.srd.lSrclk = false → s.srd.lRclk = false →
    (∀ k, k ≤ 16 →
      (firstPulses k s).chain.q = s.chain.q ∧
      (firstPulses k s).chain.shift.toNat % 2 ^ k = s.srd.img.toNat / 2 ^ (16 - k)) ∧
    transmit s = latchPulse (firstPulses 16 s) ∧
    (transmit s).chain.shift = s.srd.img ∧ (transmit s).chain.q = s.srd.img ∧ (transmit s).srd.img = s.srd.img

/-- SR.UPDATE, SR.CLEAR and SR.SETALL put the image (the old one, zero, the operand) in `SR_IMG`, the shift stage and the
outputs, emit the events of one transmit, leave `SER` at bit 0, and change nothing else (R87, R88, R89). -/
def Obligations.TransmittingCommandsDeliverImage : Prop :=
  ∀ s : State, s.srd.inited = true → s.srd.lSrclk = false → s.srd.lRclk = false →
    let sent : Half → State := fun img =>
      { s with
        srd := { s.srd with img := img, lSer := img.getLsbD 0 }
        chain := { shift := img, q := img }
        trace := s.trace ++ transmitEvents (srdLabels s) img
        resp := 0 }
    exec .srUpdate s = .next (sent s.srd.img) ∧ exec .srClear s = .next (sent 0) ∧
    ∀ x : Half, exec (.srSetall x) s = .next (sent x)

/-- The serial frame of SR.SETALL: a receiver that samples `SER` at each rise of `SRCLK` collects sixteen samples, bit 15
first and bit 0 last, from which the image is reconstructed (R68). -/
def Obligations.SerialFrameReconstructsImage : Prop :=
  ∀ (s : State) (x : Half), s.srd.inited = true → s.srd.lSrclk = false → s.srd.lRclk = false →
    ∃ t, exec (.srSetall x) s = .next t ∧
      (receivedSamples (newEvents s t)).length = 16 ∧
      (∀ k, k < 16 → (receivedSamples (newEvents s t))[k]? = some (x.getLsbD (15 - k))) ∧
      frameValue (receivedSamples (newEvents s t)) = x.toNat

/-- With `SHIFT16` the number of events of each kind a command emits is fixed by the command and its index, and the trace
before it is kept (R184, R213, R9). -/
def Obligations.EventCountsAreFixed : Prop :=
  ∀ (i : Instr) (s t : State), backendOf s.build = .shift16 → exec i s = .next t →
    s.trace <+: t.trace ∧ eventCounts (newEvents s t) = expectedCounts i

/-- MAP.L2B responds the entry of the build's one table `LED_MAP` for each logical index, and 0 for any other operand, in
every state and without an INIT; nothing but `RESP` changes (R103). The table meets the constraints (a) to (e) of R101, and no
step changes it (R100). LedUpdateShift16TransmitsFrame speaks of the same table. -/
def Obligations.MapRespondsAdmissibleTable : Prop :=
  ∀ s : State,
    let ledMap : Fin 16 → Fin 16 := fun i => s.build.ledMap.entries[i]
    (∀ (a : Byte) (h : a.toNat < 16),
      exec (.mapL2b a) s = .next { s with resp := BitVec.ofNat 16 (ledMap ⟨a.toNat, h⟩).val }) ∧
    (∀ a : Byte, 16 ≤ a.toNat → exec (.mapL2b a) s = .next { s with resp := 0 }) ∧
    Function.Bijective ledMap ∧ ledMap 7 = 0 ∧ ledMap 15 = 15 ∧ (∀ i, i.val < 8 ↔ (ledMap i).val < 8) ∧
    (∃ i, i.val < 8 ∧ ledMap i ≠ i) ∧
    ∀ t : State, step s = .next t → t.build.ledMap = s.build.ledMap

/-- The rescale of an intent: the formula of R112, its range, its ends, and that it is non-decreasing. -/
def Obligations.RescaleIsClampedProportionalMonotone : Prop :=
  (∀ x : Half, (scale x).toNat = min x.toNat 1000 * 255 / 1000 ∧ (scale x).toNat ≤ 255 ∧
    (1000 ≤ x.toNat → scale x = 255)) ∧
  scale 0 = 0 ∧ ∀ x y : Half, x.toNat ≤ y.toNat → (scale x).toNat ≤ (scale y).toNat

/-- LED.SET stores the rescaled intensity in the one entry and changes nothing else but `RESP` (R116). -/
def Obligations.LedSetStoresBrightness : Prop :=
  ∀ (s : State) (a : Byte) (x : Half), s.led.inited = true → a.toNat < nLed (backendOf s.build) →
    ∃ t, exec (.ledSet a x) s = .next t ∧
      t = { s with led := { s.led with b := t.led.b }, resp := 0 } ∧
      ∀ j : Fin 16, t.led.b[j].toNat =
        if j.val = a.toNat then min x.toNat 1000 * 255 / 1000 else s.led.b[j].toNat

/-- LED.ADD adds the rescaled delta to the one entry, saturating at 255, and changes nothing else but `RESP` (R117). -/
def Obligations.LedAddSaturates : Prop :=
  ∀ (s : State) (a : Byte) (x : Half), s.led.inited = true → a.toNat < nLed (backendOf s.build) →
    ∃ t, exec (.ledAdd a x) s = .next t ∧
      t = { s with led := { s.led with b := t.led.b }, resp := 0 } ∧
      ∀ j : Fin 16, t.led.b[j].toNat =
        if j.val = a.toNat then min 255 (s.led.b[j].toNat + min x.toNat 1000 * 255 / 1000) else s.led.b[j].toNat

/-- LED.SETALL fills the LEDs from index 0 up, each to 255 before the next, and the whole budget is spent: the entries sum
to it (R118, with `GPIO8` R124). -/
def Obligations.LedSetallDistributesBudget : Prop :=
  ∀ (s : State) (x : Half), s.led.inited = true → backendOf s.build ≠ .disabled →
    let budget := min x.toNat 1000 * (255 * nLed (backendOf s.build)) / 1000
    ∃ t, exec (.ledSetall x) s = .next t ∧
      t = { s with led := { s.led with b := t.led.b }, resp := 0 } ∧
      (∀ j : Fin 16, t.led.b[j].toNat =
        if j.val < nLed (backendOf s.build) then min 255 (budget - 255 * j.val) else s.led.b[j].toNat) ∧
      ((List.finRange 16).map
        (fun j => if j.val < nLed (backendOf s.build) then t.led.b[j].toNat else 0)).sum = budget

/-- LED.SETBIN sets logical LED k, for k from 0 to 7, to 255 or 0 by bit 7 - k of the byte and keeps entries 8 to 15 (R119,
R70). -/
def Obligations.LedSetbinShowsByteMsbFirst : Prop :=
  ∀ (s : State) (c : Byte), s.led.inited = true → backendOf s.build ≠ .disabled →
    ∃ t, exec (.ledSetbin c) s = .next t ∧
      t = { s with led := { s.led with b := t.led.b }, resp := 0 } ∧
      ∀ j : Fin 16, t.led.b[j].toNat =
        if j.val < 8 then (if c.getLsbD (7 - j.val) then 255 else 0) else s.led.b[j].toNat

/-- LED.ON sets the one LED to 255 and every other LED of the backend to 0; LED.CLEAR sets every LED of the backend to 0;
neither writes a line, the image or a counter (R120, R121). -/
def Obligations.LedOnAndClearDarkenTheRest : Prop :=
  ∀ (s : State), s.led.inited = true → backendOf s.build ≠ .disabled →
    (∀ a : Byte, a.toNat < nLed (backendOf s.build) →
      ∃ t, exec (.ledOn a) s = .next t ∧
        t = { s with led := { s.led with b := t.led.b }, resp := 0 } ∧
        ∀ j : Fin 16, t.led.b[j].toNat =
          if j.val = a.toNat then 255
          else if j.val < nLed (backendOf s.build) then 0 else s.led.b[j].toNat) ∧
    ∃ t, exec .ledClear s = .next t ∧
      t = { s with led := { s.led with b := t.led.b }, resp := 0 } ∧
      ∀ j : Fin 16, t.led.b[j].toNat = if j.val < nLed (backendOf s.build) then 0 else s.led.b[j].toNat

/-- LED.CONT advances the cadence counter, back to 0 at 1000, where it responds 1, and else responds 0; nothing else
changes (R122). -/
def Obligations.LedContAdvancesCadence : Prop :=
  ∀ (s : State), s.led.inited = true → backendOf s.build ≠ .disabled → s.led.cc.toNat < 1000 →
    exec .ledCont s = .next
      { s with
        led := { s.led with cc := if s.led.cc.toNat = 999 then 0 else BitVec.ofNat 10 (s.led.cc.toNat + 1) }
        resp := if s.led.cc.toNat = 999 then 1 else 0 }

/-- In any 1000 consecutive LED.CONT exactly one responds 1 (R122). -/
def Obligations.CadenceAnswersOncePerThousand : Prop :=
  ∀ (s : State), s.led.inited = true → backendOf s.build ≠ .disabled → s.led.cc.toNat < 1000 →
    ((List.range 1000).filter (fun k => afterRepeated .ledCont (k + 1) s (fun t => t.resp == 1))).length = 1 ∧
    ∀ k, k < 1000 → afterRepeated .ledCont (k + 1) s (fun t => t.resp == 0 || t.resp == 1) = true

/-- LED.INIT with `SHIFT16`, from any state: the state SR.INIT reaches with the build's pins, and brightness table, duty
counter and cadence counter zero; nothing else changed (R111). -/
def Obligations.LedInitShift16ReachesKnownState : Prop :=
  ∀ (s : State), backendOf s.build = .shift16 →
    let p := s.build.srPins
    exec .ledInit s = .next
      { s with
        srd :=
          { img := 0, pinSer := p.ser, pinClk := p.clk, pinLatch := p.latch
            dirSer := .out, dirSrclk := .out, dirRclk := .out
            lSer := false, lSrclk := false, lRclk := false, inited := true }
        chain := { shift := 0, q := 0 }
        led := { s.led with b := Vector.replicate 16 0, dc := 0, cc := 0, inited := true }
        trace := s.trace ++ srdInitEvents ⟨p.ser, p.clk, p.latch, s.build.tSrDelay⟩
        resp := 0 }

/-- LED.INIT with `GPIO8`, from any state: the eight lines outputs and low, the eight entries and the counters zero,
nothing else changed; the SRD is not used (R124). -/
def Obligations.LedInitGpio8ReachesKnownState : Prop :=
  ∀ (s : State), backendOf s.build = .gpio8 →
    ∃ t, exec .ledInit s = .next t ∧
      t = { s with led := t.led, trace := s.trace ++ pinsInitEvents s.build, resp := 0 } ∧
      (∀ j : Fin 16, t.led.b[j] = if j.val < 8 then 0 else s.led.b[j]) ∧
      t.led.dc = 0 ∧ t.led.cc = 0 ∧ t.led.inited = true ∧
      (∀ k : Fin 8, t.led.pinLevel[k] = false) ∧ ∀ k : Fin 8, t.led.pinDir[k] = .out

/-- One tick with `SHIFT16`: the counter is incremented, then image bit `LED_MAP(i)` is 1 exactly when the phase is below
`LED_B[i]`, for all sixteen, and the image is transmitted once; nothing else changed (R115). -/
def Obligations.LedUpdateShift16TransmitsFrame : Prop :=
  ∀ (s : State), s.led.inited = true → backendOf s.build = .shift16 →
    s.srd.lSrclk = false → s.srd.lRclk = false →
    ∃ t, exec .ledUpdate s = .next t ∧
      t = { s with
            srd := { s.srd with img := t.srd.img, lSer := t.srd.img.getLsbD 0 }
            chain := { shift := t.srd.img, q := t.srd.img }
            led := { s.led with dc := BitVec.ofNat 32 (s.led.dc.toNat + 1) }
            trace := s.trace ++ transmitEvents (srdLabels s) t.srd.img
            resp := 0 } ∧
      ∀ i : Fin 16, t.srd.img.getLsbD (s.build.ledMap.entries[i]).val =
        decide ((s.led.dc.toNat + 1) % 256 < s.led.b[i].toNat)

/-- One tick with `GPIO8`: the counter is incremented, then each of the eight lines is written in turn; the SRD, the chain
and the map are not used (R124). -/
def Obligations.LedUpdateGpio8WritesLines : Prop :=
  ∀ (s : State), s.led.inited = true → backendOf s.build = .gpio8 →
    ∃ t, exec .ledUpdate s = .next t ∧
      t = { s with
            led := { s.led with dc := BitVec.ofNat 32 (s.led.dc.toNat + 1), pinLevel := t.led.pinLevel }
            trace := s.trace ++ pinsTickEvents s.build (fun k => t.led.pinLevel[k])
            resp := 0 } ∧
      ∀ k : Fin 8, t.led.pinLevel[k] =
        decide ((s.led.dc.toNat + 1) % 256 < s.led.b[k.castLE (by decide : 8 ≤ 16)].toNat)

/-- The duty law: of 256 consecutive ticks a LED with brightness v is lit in exactly v, whatever the phase at the start,
and in each tick it is lit exactly when the phase is below v (R114). The clock lines matter with `SHIFT16` only: the premise
is that of a transmit (R82), and `GPIO8` does not use the SRD (R124). -/
def Obligations.DutyIsBrightnessOver256 : Prop :=
  ∀ (s : State) (i : Fin 16), s.led.inited = true → i.val < nLed (backendOf s.build) →
    (backendOf s.build = .shift16 → s.srd.lSrclk = false ∧ s.srd.lRclk = false) →
    ((List.range 256).filter (fun k => afterRepeated .ledUpdate (k + 1) s (fun t => ledLit t i))).length =
      s.led.b[i].toNat ∧
    ∀ k, afterRepeated .ledUpdate (k + 1) s
      (fun t => ledLit t i == decide ((s.led.dc.toNat + k + 1) % 256 < s.led.b[i].toNat)) = true

/-- A higher intensity is never rescaled lower and never lights a LED in fewer ticks of a period (R125).
The premise on the clock lines is that of a transmit (R82), for `SHIFT16` only. -/
def Obligations.HigherIntensityNeverLitLess : Prop :=
  ∀ (s : State) (a : Byte) (x y : Half) (i : Fin 16), s.led.inited = true →
    i.val = a.toNat → i.val < nLed (backendOf s.build) →
    (backendOf s.build = .shift16 → s.srd.lSrclk = false ∧ s.srd.lRclk = false) →
    x.toNat ≤ y.toNat →
    (scale x).toNat ≤ (scale y).toNat ∧
    ∃ t u, exec (.ledSet a x) s = .next t ∧ exec (.ledSet a y) s = .next u ∧
      ((List.range 256).filter (fun k => afterRepeated .ledUpdate (k + 1) t (fun v => ledLit v i))).length ≤
        ((List.range 256).filter (fun k => afterRepeated .ledUpdate (k + 1) u (fun v => ledLit v i))).length

/-- With every brightness at 255 a tick outputs all ones, but all zeros in the tick of phase 255; with the step LEDs at 255
and the rest dark it outputs the low eight bits, for every admissible table (R208, R102, 95_test_vectors.md 2.6). -/
def Obligations.FullBankFrames : Prop :=
  ∀ (s : State), s.led.inited = true → backendOf s.build = .shift16 →
    s.srd.lSrclk = false → s.srd.lRclk = false →
    ∃ t, exec .ledUpdate s = .next t ∧
      ((∀ i : Fin 16, s.led.b[i] = 255) →
        t.chain.q = if (s.led.dc.toNat + 1) % 256 = 255 then 0 else 0xFFFF) ∧
      ((∀ i : Fin 16, s.led.b[i] = if i.val < 8 then 255 else 0) →
        t.chain.q = if (s.led.dc.toNat + 1) % 256 = 255 then 0 else 0x00FF)

/-- AMX.INIT from any state: the select lines outputs and low, the analog input configured, every channel armed and its
tables zero, the factor stored; 5 `LineDir` and 4 `LineWrite`; nothing else changed (R147). -/
def Obligations.AmxInitArmsEveryChannel : Prop :=
  ∀ (s : State) (f : Half),
    exec (.amxInit f) s = .next
      { s with
        amx :=
          { smooth := f, cur := Vector.replicate 16 0, rep := Vector.replicate 16 0, sup := Vector.replicate 16 800
            chg := Vector.replicate 16 false, sel := Vector.replicate 4 false, selDir := Vector.replicate 4 .out
            ainDir := .analogIn, inited := true }
        trace := s.trace ++ amxInitEvents s.build
        resp := 0 } ∧
    eventCounts (amxInitEvents s.build) = (5, 4, 0, 0)

/-- AMX.READ: the channel is selected, one sample drawn and inverted into `K_CUR`; `K_REP` and `K_CHG` follow the strict
threshold test; the other channels, `K_SUP` and everything else keep their values (R144, R145, R146). -/
def Obligations.AmxReadSamplesAndCompares : Prop :=
  ∀ (s : State) (ch : Fin 16), s.amx.inited = true →
    let v := 4095 - (sampleAt s 0).toNat
    let diff := |(v : Int) - s.amx.rep[ch].toNat|
    let passes := (s.build.knobThreshold.toNat : Int) < diff
    ∃ t, exec (.amxRead (BitVec.ofNat 8 ch.val)) s = .next t ∧
      t = { s with
            amx := { s.amx with cur := t.amx.cur, rep := t.amx.rep, chg := t.amx.chg, sel := t.amx.sel }
            trace := s.trace ++ readEvents s.build ch (sampleAt s 0)
            adcIn := s.adcIn.tail
            adcDraws := s.adcDraws + 1
            resp := 0 } ∧
      routedChannel t = ch.val ∧
      t.amx.cur[ch].toNat = v ∧
      (passes → t.amx.rep[ch].toNat = v ∧ t.amx.chg[ch] = true) ∧
      (¬ passes → t.amx.rep[ch] = s.amx.rep[ch] ∧ t.amx.chg[ch] = (s.build.flagSticky && s.amx.chg[ch])) ∧
      ∀ j : Fin 16, j ≠ ch →
        t.amx.cur[j] = s.amx.cur[j] ∧ t.amx.rep[j] = s.amx.rep[j] ∧ t.amx.chg[j] = s.amx.chg[j]

/-- AMX.READALL: sixteen reads, channel 0 first, the k-th sample going to channel k and compared with that channel's own
`K_REP` only; the select lines are left at 15 (R148). -/
def Obligations.AmxReadallScansInOrder : Prop :=
  ∀ (s : State), s.amx.inited = true →
    ∃ t, exec .amxReadall s = .next t ∧
      t = { s with
            amx := { s.amx with cur := t.amx.cur, rep := t.amx.rep, chg := t.amx.chg, sel := t.amx.sel }
            trace := s.trace ++ (List.finRange 16).flatMap (fun ch => readEvents s.build ch (sampleAt s ch.val))
            adcIn := s.adcIn.drop 16
            adcDraws := s.adcDraws + 16
            resp := 0 } ∧
      routedChannel t = 15 ∧
      ∀ ch : Fin 16,
        let v := 4095 - (sampleAt s ch.val).toNat
        let passes := (s.build.knobThreshold.toNat : Int) < |(v : Int) - s.amx.rep[ch].toNat|
        t.amx.cur[ch].toNat = v ∧
        (passes → t.amx.rep[ch].toNat = v ∧ t.amx.chg[ch] = true) ∧
        (¬ passes → t.amx.rep[ch] = s.amx.rep[ch] ∧ t.amx.chg[ch] = (s.build.flagSticky && s.amx.chg[ch]))

/-- AMX.VALUE responds the reported value of the channel, also inside the startup window, and changes nothing else
(R149). -/
def Obligations.AmxValueRespondsReported : Prop :=
  ∀ (s : State) (ch : Fin 16), s.amx.inited = true →
    exec (.amxValue (BitVec.ofNat 8 ch.val)) s = .next { s with resp := BitVec.ofNat 16 s.amx.rep[ch].toNat }

/-- AMX.CHANGED: while the channel's counter is nonzero it is decremented and 0 is responded; at zero the flag is responded
and nothing else changes, the flag included (R150). -/
def Obligations.AmxChangedPollsWindowThenFlag : Prop :=
  ∀ (s : State) (ch : Fin 16), s.amx.inited = true →
    ∃ t, exec (.amxChanged (BitVec.ofNat 8 ch.val)) s = .next t ∧
      (s.amx.sup[ch].toNat = 0 → t = { s with resp := if s.amx.chg[ch] then 1 else 0 }) ∧
      (s.amx.sup[ch].toNat ≠ 0 →
        t = { s with amx := { s.amx with sup := t.amx.sup }, resp := 0 } ∧
        ∀ j : Fin 16, t.amx.sup[j].toNat = if j = ch then s.amx.sup[ch].toNat - 1 else s.amx.sup[j].toNat)

/-- AMX.RESET re-arms the window of its channel and AMX.RESETALL of every channel, to 800; flags, reported values and all
else keep their values (R151, R152). -/
def Obligations.AmxResetRearmsWindowOnly : Prop :=
  ∀ (s : State), s.amx.inited = true →
    (∀ ch : Fin 16, ∃ t, exec (.amxReset (BitVec.ofNat 8 ch.val)) s = .next t ∧
      t = { s with amx := { s.amx with sup := t.amx.sup }, resp := 0 } ∧
      ∀ j : Fin 16, t.amx.sup[j].toNat = if j = ch then 800 else s.amx.sup[j].toNat) ∧
    exec .amxResetall s = .next { s with amx := { s.amx with sup := Vector.replicate 16 800 }, resp := 0 }

/-- The startup window: with n in the channel's counter the next n polls respond 0 whatever the flag, and every poll after
them responds the flag (R150, S7). -/
def Obligations.StartupWindowSuppressesPolls : Prop :=
  ∀ (s : State) (ch : Fin 16), s.amx.inited = true →
    let n := s.amx.sup[ch].toNat
    (∀ k, k < n → afterRepeated (.amxChanged (BitVec.ofNat 8 ch.val)) (k + 1) s (fun t => t.resp == 0) = true) ∧
    ∀ k, n ≤ k → afterRepeated (.amxChanged (BitVec.ofNat 8 ch.val)) (k + 1) s
      (fun t => t.resp == (if s.amx.chg[ch] then 1 else 0)) = true

/-- Hysteresis: no command but AMX.INIT ever moves a reported value by the threshold or less; and when AMX.READ of a channel
or AMX.READALL leaves its reported value, the sample lay within the threshold of it (R153). -/
def Obligations.ReportedValueHasHysteresis : Prop :=
  (∀ (i : Instr) (s t : State), (∀ f, i ≠ .amxInit f) → exec i s = .next t →
    ∀ ch : Fin 16, t.amx.rep[ch] ≠ s.amx.rep[ch] →
      (s.build.knobThreshold.toNat : Int) < |(t.amx.rep[ch].toNat : Int) - s.amx.rep[ch].toNat|) ∧
  ∀ (i : Instr) (s t : State) (ch : Fin 16), i = .amxRead (BitVec.ofNat 8 ch.val) ∨ i = .amxReadall → exec i s = .next t →
    t.amx.rep[ch] = s.amx.rep[ch] →
      |(t.amx.cur[ch].toNat : Int) - s.amx.rep[ch].toNat| ≤ s.build.knobThreshold.toNat

/-- Ownership: an AMX command changes no SRD, chain or LED state, no other command changes AMX state or draws a sample, and
an SR or MAP command changes no LED state; MAP.L2B changes `RESP` only (R30). -/
def Obligations.UnitsKeepToTheirOwnState : Prop :=
  ∀ (i : Instr) (s t : State), exec i s = .next t →
    (unitOf i = some .amx → t.srd = s.srd ∧ t.chain = s.chain ∧ t.led = s.led) ∧
    (unitOf i ≠ some .amx → t.amx = s.amx ∧ t.adcIn = s.adcIn ∧ t.adcDraws = s.adcDraws) ∧
    (unitOf i = some .srd → t.led = s.led) ∧
    (unitOf i = none → t = { s with resp := t.resp })

/-- Each INIT brings its unit from any state to one fixed state: from two states of the same build what the unit holds
afterwards is the same, so nothing depends on the power-on values (R192). -/
def Obligations.InitForgetsEarlierState : Prop :=
  ∀ (s s' : State), s.build = s'.build →
    (∀ a b c t t', exec (.srInit a b c) s = .next t → exec (.srInit a b c) s' = .next t' →
      t.srd = t'.srd ∧ t.chain = t'.chain ∧ t.resp = t'.resp) ∧
    (∀ t t', backendOf s.build = .shift16 → exec .ledInit s = .next t → exec .ledInit s' = .next t' →
      t.srd = t'.srd ∧ t.chain = t'.chain ∧ t.led.b = t'.led.b ∧ t.led.dc = t'.led.dc ∧ t.led.cc = t'.led.cc ∧
        t.resp = t'.resp) ∧
    (∀ t t', backendOf s.build = .gpio8 → exec .ledInit s = .next t → exec .ledInit s' = .next t' →
      t.led.dc = t'.led.dc ∧ t.led.cc = t'.led.cc ∧ t.led.pinLevel = t'.led.pinLevel ∧ t.led.pinDir = t'.led.pinDir ∧
        t.resp = t'.resp ∧ ∀ j : Fin 16, j.val < 8 → t.led.b[j] = t'.led.b[j]) ∧
    ∀ f t t', exec (.amxInit f) s = .next t → exec (.amxInit f) s' = .next t' →
      t.amx = t'.amx ∧ t.resp = t'.resp

/-- Issuing one of the quiet commands R48 calls idempotent twice in a row leaves the same state and the same response as
issuing it once. -/
def Obligations.QuietCommandsAreIdempotent : Prop :=
  ∀ (i : Instr) (s t : State), quietIdempotent i = true → exec i s = .next t → exec i t = .next t

/-- SR.UPDATE, SR.CLEAR, SR.SETALL and SR.INIT issued twice in a row leave the same state, apart from the trace, as issued
once (R48). -/
def Obligations.TransmittersAreIdempotentButForTrace : Prop :=
  ∀ (i : Instr) (s t : State), s.Inv →
    (i = .srUpdate ∨ i = .srClear ∨ (∃ x, i = .srSetall x) ∨ ∃ a b c, i = .srInit a b c) →
    exec i s = .next t → ∃ u, exec i t = .next u ∧ { u with trace := t.trace } = t

/-- No step clears a ghost flag, changes the build, unmarks the run, or takes back an event (R15, R20, R29, R31, R9). -/
def Obligations.StepsNeverUndoFlagsBuildOrTrace : Prop :=
  ∀ (s t : State), step s = .next t →
    (∀ u, ghostFlag s u = true → ghostFlag t u = true) ∧ t.build = s.build ∧
    (s.runRefused = true → t.runRefused = true) ∧ s.trace <+: t.trace

/-- Once SR.INIT has run, `CH_SHIFT = CH_Q` between commands and the clock lines rest low, the counters stay in their
ranges, the lines stay configured: the invariant is kept by every step (R12, R13, R18, R19, R25, R27, R91). -/
def Obligations.StepKeepsInvariant : Prop :=
  ∀ (s t : State), s.Inv → step s = .next t → t.Inv

/-- The invariant holds at power-on. -/
def Obligations.ResetMeetsInvariant : Prop :=
  State.reset.Inv

/-- At power-on the three ghost flags are 0, no line is configured and nothing has been emitted (R190, R9). Two clauses are
the model's own: no word waits at the port (log 4), and the mark `runRefused` of an illegal word is clear (log 10). -/
def Obligations.ResetHasFlagsClearLinesUnconfigured : Prop :=
  (∀ u, ghostFlag State.reset u = false) ∧
  State.reset.srd.dirSer = .notConfigured ∧ State.reset.srd.dirSrclk = .notConfigured ∧
  State.reset.srd.dirRclk = .notConfigured ∧
  (∀ i : Fin 8, State.reset.led.pinDir[i] = .notConfigured) ∧
  (∀ k : Fin 4, State.reset.amx.selDir[k] = .notConfigured) ∧ State.reset.amx.ainDir = .notConfigured ∧
  State.reset.trace = [] ∧ State.reset.cmds = [] ∧ State.reset.runRefused = false
end

