-- ==== Sys2Proof/Laws/Encoding.lean ====
section
/-! SUPPORT. The fields of the words the encoder writes. -/

namespace Sys2Proof

theorem opField_wordOf (op a b c : Byte) : opField (wordOf op a b c) = op := by
  apply BitVec.eq_of_getLsbD_eq; intro i hi
  interval_cases i <;> simp [opField, wordOf]
theorem opField_wordImm (op a : Byte) (x : Half) : opField (wordImm op a x) = op := by
  apply BitVec.eq_of_getLsbD_eq; intro i hi
  interval_cases i <;> simp [opField, wordImm]
theorem aField_wordOf (op a b c : Byte) : aField (wordOf op a b c) = a := by
  apply BitVec.eq_of_getLsbD_eq; intro i hi
  interval_cases i <;> simp [aField, wordOf]
theorem bField_wordOf (op a b c : Byte) : bField (wordOf op a b c) = b := by
  apply BitVec.eq_of_getLsbD_eq; intro i hi
  interval_cases i <;> simp [bField, wordOf]
theorem cField_wordOf (op a b c : Byte) : cField (wordOf op a b c) = c := by
  apply BitVec.eq_of_getLsbD_eq; intro i hi
  interval_cases i <;> simp [cField, wordOf]
theorem aField_wordImm (op a : Byte) (x : Half) : aField (wordImm op a x) = a := by
  apply BitVec.eq_of_getLsbD_eq; intro i hi
  interval_cases i <;> simp [aField, wordImm]
theorem immField_wordImm (op a : Byte) (x : Half) : immField (wordImm op a x) = x := by
  apply BitVec.eq_of_getLsbD_eq; intro i hi
  interval_cases i <;> simp [immField, wordImm]
theorem onField_wordOf (op a b : Byte) (on : Bool) : onField (wordOf op a b ((BitVec.ofBool on).setWidth 8)) = on := by
  cases on <;> simp [onField, wordOf]

theorem opField_toNat (w : CmdWord) : (opField w).toNat = w.toNat / 2 ^ 24 := by
  simp [opField, Nat.shiftRight_eq_div_pow]
  have := w.isLt
  omega

end Sys2Proof
end

