-- ==== Sys2Proof/Laws/Operands.lean ====
section
/-! SUPPORT. What each operand form, table operation and flag computation answers. -/

namespace Sys2Proof.Machine

@[simp] theorem setEntry_getElem {α : Type} {n : Nat} (t : Vector α n) (i : Fin n) (v : α) (j : Nat) (h : j < n) :
    (setEntry t i v)[j]'h = if i.val = j then v else t[j]'h := by
  simp [setEntry, Vector.getElem_set]

theorem oneAt_getLsbD (p : Fin 16) (q : Nat) (hq : q < 16) : (1#16 <<< p.val).getLsbD q = decide (q = p.val) := by
  rw [BitVec.getLsbD_shiftLeft, BitVec.getLsbD_one]
  by_cases h1 : q < p.val
  · simp [h1, hq]; omega
  · simp [h1, hq]; omega

theorem setBit_getLsbD (v : Half) (p : Fin 16) (on : Bool) (q : Nat) :
    (setBit v p on).getLsbD q = if q = p.val then on else v.getLsbD q := by
  have hp := p.isLt
  by_cases hq : q < 16
  · cases on
    · rw [setBit, if_neg (by decide), BitVec.getLsbD_and, BitVec.getLsbD_not, oneAt_getLsbD p q hq]
      by_cases h : q = p.val <;> simp [h, hq]
    · rw [setBit, if_pos rfl, BitVec.getLsbD_or, oneAt_getLsbD p q hq]
      by_cases h : q = p.val <;> simp [h]
  · rw [if_neg (by omega), BitVec.getLsbD_of_ge _ _ (by omega), BitVec.getLsbD_of_ge _ _ (by omega)]

theorem index16_of_lt (a : Byte) (h : a.toNat < 16) : index16 a = some ⟨a.toNat, h⟩ := dif_pos h

theorem index16_of_ge (a : Byte) (h : 16 ≤ a.toNat) : index16 a = none := dif_neg (by omega)

theorem nLed_le (be : Backend) : nLed be ≤ 16 := by cases be <;> decide

theorem ledIndex_of_lt (be : Backend) (a : Byte) (h : a.toNat < nLed be) :
    ledIndex be a = some ⟨a.toNat, Nat.lt_of_lt_of_le h (nLed_le be)⟩ := by
  rw [ledIndex, if_pos h, index16_of_lt]

theorem ledIndex_of_ge (be : Backend) (a : Byte) (h : nLed be ≤ a.toNat) : ledIndex be a = none :=
  if_neg (by omega)

theorem ledIndices_vals (be : Backend) : (ledIndices be).map Fin.val = List.range' 0 (nLed be) := by
  cases be <;> decide

theorem mem_ledIndices (be : Backend) (i : Fin 16) : i ∈ ledIndices be ↔ i.val < nLed be := by
  simp [ledIndices]

theorem scaleNat_le (x : Half) : scaleNat x ≤ 255 := by
  simp only [scaleNat, iMax, bMax]; omega

theorem scale_toNat (x : Half) : (scale x).toNat = scaleNat x := by
  have := scaleNat_le x
  simp only [scale, BitVec.toNat_ofNat]; omega

theorem addSaturate_toNat (old : Byte) (delta : Half) :
    (addSaturate old delta).toNat = min 255 (old.toNat + scaleNat delta) := by
  simp only [addSaturate, BitVec.toNat_ofNat, bMax]; omega

theorem setallBudget_le (be : Backend) (x : Half) : setallBudget be x ≤ 255 * nLed be := by
  cases be <;> simp only [setallBudget, setallK, nLed, iMax] <;> omega

/-- What the level meter leaves in each entry, for a run of LEDs from `k` on (R118). -/
theorem spread_getElem : ∀ (is : List (Fin 16)) (k budget : Nat) (b : Vector Byte 16),
    is.map Fin.val = List.range' k is.length → ∀ (j : Nat) (hj : j < 16),
      ((spread is budget b)[j]'hj) =
        if k ≤ j ∧ j < k + is.length then BitVec.ofNat 8 (min (budget - 255 * (j - k)) 255) else b[j]'hj
  | [], k, budget, b, _, j, hj => by simp [spread]
  | i :: is, k, budget, b, h, j, hj => by
    simp only [List.map_cons, List.length_cons, List.range'_succ, List.cons.injEq] at h
    rw [spread, spread_getElem is (k + 1) _ _ h.2 j hj, setEntry_getElem, h.1]
    simp only [List.length_cons, bMax]
    by_cases hk : j = k
    · subst hk; simp
    · by_cases h2 : k + 1 ≤ j ∧ j < k + 1 + is.length
      · rw [if_pos h2, if_pos (by omega)]
        congr 1; omega
      · rw [if_neg h2, if_neg (by omega), if_neg (by omega)]

theorem darken_getElem (is : List (Fin 16)) (b : Vector Byte 16) (j : Fin 16) :
    (darken is b)[j.val] = if j ∈ is then 0 else b[j.val] := by
  unfold darken
  induction is generalizing b with
  | nil => simp
  | cons i is ih =>
    rw [List.foldl_cons, ih, setEntry_getElem]
    by_cases h1 : j ∈ is
    · simp [h1]
    · by_cases h2 : j = i
      · simp [h2]
      · have : i.val ≠ j.val := fun e => h2 (Fin.ext e.symm)
        simp [h1, h2, this]

theorem showByte_getElem (c : Byte) (b : Vector Byte 16) (j : Nat) (hj : j < 16) :
    (showByte c b)[j]'hj = if j < 8 then (if c.getLsbD (7 - j) then 255 else 0) else b[j]'hj := by
  have key : ∀ (ks : List (Fin 8)) (b : Vector Byte 16),
      ((ks.foldl (fun b k => setEntry b (k.castLE (by decide : 8 ≤ 16))
        (if c.getLsbD (7 - k.val) then BitVec.ofNat 8 bMax else 0)) b)[j]'hj) =
        if j ∈ ks.map Fin.val then (if c.getLsbD (7 - j) then 255 else 0) else b[j]'hj := by
    intro ks
    induction ks with
    | nil => intro b; simp
    | cons k ks ih =>
      intro b
      rw [List.foldl_cons, ih, setEntry_getElem]
      by_cases h1 : j ∈ ks.map Fin.val
      · have h3 : j ∈ (k :: ks).map Fin.val := by
          rw [List.map_cons, List.mem_cons]; exact Or.inr h1
        rw [if_pos h1, if_pos h3]
      · by_cases h2 : k.val = j
        · subst h2
          simp [h1, bMax]
        · have h3 : j ∉ (k :: ks).map Fin.val := by
            simp only [List.map_cons, List.mem_cons, not_or]; exact ⟨fun e => h2 e.symm, h1⟩
          rw [if_neg h1, if_neg h3]
          simp [h2]
  rw [showByte, key]
  by_cases h : j < 8
  · have : j ∈ (List.finRange 8).map Fin.val := by simpa using h
    simp only [this, h, if_true]
  · have : j ∉ (List.finRange 8).map Fin.val := by simpa using h
    simp only [this, h, if_false]

theorem boolResp_getLsbD (b : Bool) (k : Nat) : (boolResp b).getLsbD k = (decide (k = 0) && b) := by
  rcases k with _ | k <;> cases b <;> simp [boolResp]

theorem invertSample_toNat (raw : AdcCode) : (invertSample raw).toNat = 4095 - raw.toNat := by
  have := raw.isLt
  simp only [invertSample, adcMax, adcBits, BitVec.toNat_sub, BitVec.toNat_allOnes] at *; omega

theorem changePasses_iff (threshold v rep : AdcCode) :
    changePasses threshold v rep = true ↔ (threshold.toNat : Int) < |(v.toNat : Int) - rep.toNat| := by
  rw [changePasses, decide_eq_true_iff, absDiff]
  split <;> rename_i h
  · rw [abs_of_nonneg (by omega)]; omega
  · rw [abs_of_neg (by omega)]; omega

theorem phaseOf_succ (dc : BitVec dutyWidth) : phaseOf (dc + 1) = (phaseOf dc + 1) % 256 := by
  simp only [phaseOf, pwmPeriod, BitVec.toNat_add, dutyWidth]
  simp

end Sys2Proof.Machine
end

