-- ==== Sys2Proof/Laws/State.lean ====
section
/-! SUPPORT. What each named update of State leaves in each of its fields: one lemma per field per update. -/

namespace Sys2Proof.Machine

@[simp] theorem respond_srd (v : Half) (s : State) : (respond v s).srd = s.srd := rfl
@[simp] theorem respond_chain (v : Half) (s : State) : (respond v s).chain = s.chain := rfl
@[simp] theorem respond_led (v : Half) (s : State) : (respond v s).led = s.led := rfl
@[simp] theorem respond_amx (v : Half) (s : State) : (respond v s).amx = s.amx := rfl
@[simp] theorem respond_resp (v : Half) (s : State) : (respond v s).resp = v := rfl
@[simp] theorem respond_build (v : Half) (s : State) : (respond v s).build = s.build := rfl
@[simp] theorem respond_trace (v : Half) (s : State) : (respond v s).trace = s.trace := rfl
@[simp] theorem respond_cmds (v : Half) (s : State) : (respond v s).cmds = s.cmds := rfl
@[simp] theorem respond_adcIn (v : Half) (s : State) : (respond v s).adcIn = s.adcIn := rfl
@[simp] theorem respond_adcDraws (v : Half) (s : State) : (respond v s).adcDraws = s.adcDraws := rfl
@[simp] theorem respond_runRefused (v : Half) (s : State) : (respond v s).runRefused = s.runRefused := rfl

@[simp] theorem ignoreCall_srd (s : State) : (ignoreCall s).srd = s.srd := rfl
@[simp] theorem ignoreCall_chain (s : State) : (ignoreCall s).chain = s.chain := rfl
@[simp] theorem ignoreCall_led (s : State) : (ignoreCall s).led = s.led := rfl
@[simp] theorem ignoreCall_amx (s : State) : (ignoreCall s).amx = s.amx := rfl
@[simp] theorem ignoreCall_resp (s : State) : (ignoreCall s).resp = 0 := rfl
@[simp] theorem ignoreCall_build (s : State) : (ignoreCall s).build = s.build := rfl
@[simp] theorem ignoreCall_trace (s : State) : (ignoreCall s).trace = s.trace := rfl
@[simp] theorem ignoreCall_cmds (s : State) : (ignoreCall s).cmds = s.cmds := rfl
@[simp] theorem ignoreCall_adcIn (s : State) : (ignoreCall s).adcIn = s.adcIn := rfl
@[simp] theorem ignoreCall_adcDraws (s : State) : (ignoreCall s).adcDraws = s.adcDraws := rfl
@[simp] theorem ignoreCall_runRefused (s : State) : (ignoreCall s).runRefused = s.runRefused := rfl

@[simp] theorem emit_srd (e : Event) (s : State) : (emit e s).srd = s.srd := rfl
@[simp] theorem emit_chain (e : Event) (s : State) : (emit e s).chain = s.chain := rfl
@[simp] theorem emit_led (e : Event) (s : State) : (emit e s).led = s.led := rfl
@[simp] theorem emit_amx (e : Event) (s : State) : (emit e s).amx = s.amx := rfl
@[simp] theorem emit_resp (e : Event) (s : State) : (emit e s).resp = s.resp := rfl
@[simp] theorem emit_build (e : Event) (s : State) : (emit e s).build = s.build := rfl
@[simp] theorem emit_trace (e : Event) (s : State) : (emit e s).trace = s.trace ++ [e] := rfl
@[simp] theorem emit_cmds (e : Event) (s : State) : (emit e s).cmds = s.cmds := rfl
@[simp] theorem emit_adcIn (e : Event) (s : State) : (emit e s).adcIn = s.adcIn := rfl
@[simp] theorem emit_adcDraws (e : Event) (s : State) : (emit e s).adcDraws = s.adcDraws := rfl
@[simp] theorem emit_runRefused (e : Event) (s : State) : (emit e s).runRefused = s.runRefused := rfl

@[simp] theorem setImage_srd (v : Half) (s : State) : (setImage v s).srd = { s.srd with img := v } := rfl
@[simp] theorem setImage_chain (v : Half) (s : State) : (setImage v s).chain = s.chain := rfl
@[simp] theorem setImage_led (v : Half) (s : State) : (setImage v s).led = s.led := rfl
@[simp] theorem setImage_amx (v : Half) (s : State) : (setImage v s).amx = s.amx := rfl
@[simp] theorem setImage_resp (v : Half) (s : State) : (setImage v s).resp = s.resp := rfl
@[simp] theorem setImage_build (v : Half) (s : State) : (setImage v s).build = s.build := rfl
@[simp] theorem setImage_trace (v : Half) (s : State) : (setImage v s).trace = s.trace := rfl
@[simp] theorem setImage_cmds (v : Half) (s : State) : (setImage v s).cmds = s.cmds := rfl
@[simp] theorem setImage_adcIn (v : Half) (s : State) : (setImage v s).adcIn = s.adcIn := rfl
@[simp] theorem setImage_adcDraws (v : Half) (s : State) : (setImage v s).adcDraws = s.adcDraws := rfl
@[simp] theorem setImage_runRefused (v : Half) (s : State) : (setImage v s).runRefused = s.runRefused := rfl

@[simp] theorem setPins_srd (a b c : Pin) (s : State) : (setPins a b c s).srd = { s.srd with pinSer := a, pinClk := b, pinLatch := c } := rfl
@[simp] theorem setPins_chain (a b c : Pin) (s : State) : (setPins a b c s).chain = s.chain := rfl
@[simp] theorem setPins_led (a b c : Pin) (s : State) : (setPins a b c s).led = s.led := rfl
@[simp] theorem setPins_amx (a b c : Pin) (s : State) : (setPins a b c s).amx = s.amx := rfl
@[simp] theorem setPins_resp (a b c : Pin) (s : State) : (setPins a b c s).resp = s.resp := rfl
@[simp] theorem setPins_build (a b c : Pin) (s : State) : (setPins a b c s).build = s.build := rfl
@[simp] theorem setPins_trace (a b c : Pin) (s : State) : (setPins a b c s).trace = s.trace := rfl
@[simp] theorem setPins_cmds (a b c : Pin) (s : State) : (setPins a b c s).cmds = s.cmds := rfl
@[simp] theorem setPins_adcIn (a b c : Pin) (s : State) : (setPins a b c s).adcIn = s.adcIn := rfl
@[simp] theorem setPins_adcDraws (a b c : Pin) (s : State) : (setPins a b c s).adcDraws = s.adcDraws := rfl
@[simp] theorem setPins_runRefused (a b c : Pin) (s : State) : (setPins a b c s).runRefused = s.runRefused := rfl

@[simp] theorem markSrdInited_srd (s : State) : (markSrdInited s).srd = { s.srd with inited := true } := rfl
@[simp] theorem markSrdInited_chain (s : State) : (markSrdInited s).chain = s.chain := rfl
@[simp] theorem markSrdInited_led (s : State) : (markSrdInited s).led = s.led := rfl
@[simp] theorem markSrdInited_amx (s : State) : (markSrdInited s).amx = s.amx := rfl
@[simp] theorem markSrdInited_resp (s : State) : (markSrdInited s).resp = s.resp := rfl
@[simp] theorem markSrdInited_build (s : State) : (markSrdInited s).build = s.build := rfl
@[simp] theorem markSrdInited_trace (s : State) : (markSrdInited s).trace = s.trace := rfl
@[simp] theorem markSrdInited_cmds (s : State) : (markSrdInited s).cmds = s.cmds := rfl
@[simp] theorem markSrdInited_adcIn (s : State) : (markSrdInited s).adcIn = s.adcIn := rfl
@[simp] theorem markSrdInited_adcDraws (s : State) : (markSrdInited s).adcDraws = s.adcDraws := rfl
@[simp] theorem markSrdInited_runRefused (s : State) : (markSrdInited s).runRefused = s.runRefused := rfl

@[simp] theorem setBrightness_srd (b : Vector Byte 16) (s : State) : (setBrightness b s).srd = s.srd := rfl
@[simp] theorem setBrightness_chain (b : Vector Byte 16) (s : State) : (setBrightness b s).chain = s.chain := rfl
@[simp] theorem setBrightness_led (b : Vector Byte 16) (s : State) : (setBrightness b s).led = { s.led with b := b } := rfl
@[simp] theorem setBrightness_amx (b : Vector Byte 16) (s : State) : (setBrightness b s).amx = s.amx := rfl
@[simp] theorem setBrightness_resp (b : Vector Byte 16) (s : State) : (setBrightness b s).resp = s.resp := rfl
@[simp] theorem setBrightness_build (b : Vector Byte 16) (s : State) : (setBrightness b s).build = s.build := rfl
@[simp] theorem setBrightness_trace (b : Vector Byte 16) (s : State) : (setBrightness b s).trace = s.trace := rfl
@[simp] theorem setBrightness_cmds (b : Vector Byte 16) (s : State) : (setBrightness b s).cmds = s.cmds := rfl
@[simp] theorem setBrightness_adcIn (b : Vector Byte 16) (s : State) : (setBrightness b s).adcIn = s.adcIn := rfl
@[simp] theorem setBrightness_adcDraws (b : Vector Byte 16) (s : State) : (setBrightness b s).adcDraws = s.adcDraws := rfl
@[simp] theorem setBrightness_runRefused (b : Vector Byte 16) (s : State) : (setBrightness b s).runRefused = s.runRefused := rfl

@[simp] theorem setDuty_srd (dc : BitVec dutyWidth) (s : State) : (setDuty dc s).srd = s.srd := rfl
@[simp] theorem setDuty_chain (dc : BitVec dutyWidth) (s : State) : (setDuty dc s).chain = s.chain := rfl
@[simp] theorem setDuty_led (dc : BitVec dutyWidth) (s : State) : (setDuty dc s).led = { s.led with dc := dc } := rfl
@[simp] theorem setDuty_amx (dc : BitVec dutyWidth) (s : State) : (setDuty dc s).amx = s.amx := rfl
@[simp] theorem setDuty_resp (dc : BitVec dutyWidth) (s : State) : (setDuty dc s).resp = s.resp := rfl
@[simp] theorem setDuty_build (dc : BitVec dutyWidth) (s : State) : (setDuty dc s).build = s.build := rfl
@[simp] theorem setDuty_trace (dc : BitVec dutyWidth) (s : State) : (setDuty dc s).trace = s.trace := rfl
@[simp] theorem setDuty_cmds (dc : BitVec dutyWidth) (s : State) : (setDuty dc s).cmds = s.cmds := rfl
@[simp] theorem setDuty_adcIn (dc : BitVec dutyWidth) (s : State) : (setDuty dc s).adcIn = s.adcIn := rfl
@[simp] theorem setDuty_adcDraws (dc : BitVec dutyWidth) (s : State) : (setDuty dc s).adcDraws = s.adcDraws := rfl
@[simp] theorem setDuty_runRefused (dc : BitVec dutyWidth) (s : State) : (setDuty dc s).runRefused = s.runRefused := rfl

@[simp] theorem setCadence_srd (cc : BitVec 10) (s : State) : (setCadence cc s).srd = s.srd := rfl
@[simp] theorem setCadence_chain (cc : BitVec 10) (s : State) : (setCadence cc s).chain = s.chain := rfl
@[simp] theorem setCadence_led (cc : BitVec 10) (s : State) : (setCadence cc s).led = { s.led with cc := cc } := rfl
@[simp] theorem setCadence_amx (cc : BitVec 10) (s : State) : (setCadence cc s).amx = s.amx := rfl
@[simp] theorem setCadence_resp (cc : BitVec 10) (s : State) : (setCadence cc s).resp = s.resp := rfl
@[simp] theorem setCadence_build (cc : BitVec 10) (s : State) : (setCadence cc s).build = s.build := rfl
@[simp] theorem setCadence_trace (cc : BitVec 10) (s : State) : (setCadence cc s).trace = s.trace := rfl
@[simp] theorem setCadence_cmds (cc : BitVec 10) (s : State) : (setCadence cc s).cmds = s.cmds := rfl
@[simp] theorem setCadence_adcIn (cc : BitVec 10) (s : State) : (setCadence cc s).adcIn = s.adcIn := rfl
@[simp] theorem setCadence_adcDraws (cc : BitVec 10) (s : State) : (setCadence cc s).adcDraws = s.adcDraws := rfl
@[simp] theorem setCadence_runRefused (cc : BitVec 10) (s : State) : (setCadence cc s).runRefused = s.runRefused := rfl

@[simp] theorem markLedInited_srd (s : State) : (markLedInited s).srd = s.srd := rfl
@[simp] theorem markLedInited_chain (s : State) : (markLedInited s).chain = s.chain := rfl
@[simp] theorem markLedInited_led (s : State) : (markLedInited s).led = { s.led with inited := true } := rfl
@[simp] theorem markLedInited_amx (s : State) : (markLedInited s).amx = s.amx := rfl
@[simp] theorem markLedInited_resp (s : State) : (markLedInited s).resp = s.resp := rfl
@[simp] theorem markLedInited_build (s : State) : (markLedInited s).build = s.build := rfl
@[simp] theorem markLedInited_trace (s : State) : (markLedInited s).trace = s.trace := rfl
@[simp] theorem markLedInited_cmds (s : State) : (markLedInited s).cmds = s.cmds := rfl
@[simp] theorem markLedInited_adcIn (s : State) : (markLedInited s).adcIn = s.adcIn := rfl
@[simp] theorem markLedInited_adcDraws (s : State) : (markLedInited s).adcDraws = s.adcDraws := rfl
@[simp] theorem markLedInited_runRefused (s : State) : (markLedInited s).runRefused = s.runRefused := rfl

@[simp] theorem setSuppression_srd (sup : Vector Half 16) (s : State) : (setSuppression sup s).srd = s.srd := rfl
@[simp] theorem setSuppression_chain (sup : Vector Half 16) (s : State) : (setSuppression sup s).chain = s.chain := rfl
@[simp] theorem setSuppression_led (sup : Vector Half 16) (s : State) : (setSuppression sup s).led = s.led := rfl
@[simp] theorem setSuppression_amx (sup : Vector Half 16) (s : State) : (setSuppression sup s).amx = { s.amx with sup := sup } := rfl
@[simp] theorem setSuppression_resp (sup : Vector Half 16) (s : State) : (setSuppression sup s).resp = s.resp := rfl
@[simp] theorem setSuppression_build (sup : Vector Half 16) (s : State) : (setSuppression sup s).build = s.build := rfl
@[simp] theorem setSuppression_trace (sup : Vector Half 16) (s : State) : (setSuppression sup s).trace = s.trace := rfl
@[simp] theorem setSuppression_cmds (sup : Vector Half 16) (s : State) : (setSuppression sup s).cmds = s.cmds := rfl
@[simp] theorem setSuppression_adcIn (sup : Vector Half 16) (s : State) : (setSuppression sup s).adcIn = s.adcIn := rfl
@[simp] theorem setSuppression_adcDraws (sup : Vector Half 16) (s : State) : (setSuppression sup s).adcDraws = s.adcDraws := rfl
@[simp] theorem setSuppression_runRefused (sup : Vector Half 16) (s : State) : (setSuppression sup s).runRefused = s.runRefused := rfl

@[simp] theorem setSmoothing_srd (f : Half) (s : State) : (setSmoothing f s).srd = s.srd := rfl
@[simp] theorem setSmoothing_chain (f : Half) (s : State) : (setSmoothing f s).chain = s.chain := rfl
@[simp] theorem setSmoothing_led (f : Half) (s : State) : (setSmoothing f s).led = s.led := rfl
@[simp] theorem setSmoothing_amx (f : Half) (s : State) : (setSmoothing f s).amx = { s.amx with smooth := f } := rfl
@[simp] theorem setSmoothing_resp (f : Half) (s : State) : (setSmoothing f s).resp = s.resp := rfl
@[simp] theorem setSmoothing_build (f : Half) (s : State) : (setSmoothing f s).build = s.build := rfl
@[simp] theorem setSmoothing_trace (f : Half) (s : State) : (setSmoothing f s).trace = s.trace := rfl
@[simp] theorem setSmoothing_cmds (f : Half) (s : State) : (setSmoothing f s).cmds = s.cmds := rfl
@[simp] theorem setSmoothing_adcIn (f : Half) (s : State) : (setSmoothing f s).adcIn = s.adcIn := rfl
@[simp] theorem setSmoothing_adcDraws (f : Half) (s : State) : (setSmoothing f s).adcDraws = s.adcDraws := rfl
@[simp] theorem setSmoothing_runRefused (f : Half) (s : State) : (setSmoothing f s).runRefused = s.runRefused := rfl

@[simp] theorem armChannels_srd (s : State) : (armChannels s).srd = s.srd := rfl
@[simp] theorem armChannels_chain (s : State) : (armChannels s).chain = s.chain := rfl
@[simp] theorem armChannels_led (s : State) : (armChannels s).led = s.led := rfl
@[simp] theorem armChannels_resp (s : State) : (armChannels s).resp = s.resp := rfl
@[simp] theorem armChannels_build (s : State) : (armChannels s).build = s.build := rfl
@[simp] theorem armChannels_trace (s : State) : (armChannels s).trace = s.trace := rfl
@[simp] theorem armChannels_cmds (s : State) : (armChannels s).cmds = s.cmds := rfl
@[simp] theorem armChannels_adcIn (s : State) : (armChannels s).adcIn = s.adcIn := rfl
@[simp] theorem armChannels_adcDraws (s : State) : (armChannels s).adcDraws = s.adcDraws := rfl
@[simp] theorem armChannels_runRefused (s : State) : (armChannels s).runRefused = s.runRefused := rfl

@[simp] theorem storeSample_srd (ch : Fin 16) (v : AdcCode) (s : State) : (storeSample ch v s).srd = s.srd := rfl
@[simp] theorem storeSample_chain (ch : Fin 16) (v : AdcCode) (s : State) : (storeSample ch v s).chain = s.chain := rfl
@[simp] theorem storeSample_led (ch : Fin 16) (v : AdcCode) (s : State) : (storeSample ch v s).led = s.led := rfl
@[simp] theorem storeSample_resp (ch : Fin 16) (v : AdcCode) (s : State) : (storeSample ch v s).resp = s.resp := rfl
@[simp] theorem storeSample_build (ch : Fin 16) (v : AdcCode) (s : State) : (storeSample ch v s).build = s.build := rfl
@[simp] theorem storeSample_trace (ch : Fin 16) (v : AdcCode) (s : State) : (storeSample ch v s).trace = s.trace := rfl
@[simp] theorem storeSample_cmds (ch : Fin 16) (v : AdcCode) (s : State) : (storeSample ch v s).cmds = s.cmds := rfl
@[simp] theorem storeSample_adcIn (ch : Fin 16) (v : AdcCode) (s : State) : (storeSample ch v s).adcIn = s.adcIn := rfl
@[simp] theorem storeSample_adcDraws (ch : Fin 16) (v : AdcCode) (s : State) : (storeSample ch v s).adcDraws = s.adcDraws := rfl
@[simp] theorem storeSample_runRefused (ch : Fin 16) (v : AdcCode) (s : State) : (storeSample ch v s).runRefused = s.runRefused := rfl

@[simp] theorem drawSample_srd (s : State) : (drawSample s).srd = s.srd := rfl
@[simp] theorem drawSample_chain (s : State) : (drawSample s).chain = s.chain := rfl
@[simp] theorem drawSample_led (s : State) : (drawSample s).led = s.led := rfl
@[simp] theorem drawSample_amx (s : State) : (drawSample s).amx = s.amx := rfl
@[simp] theorem drawSample_resp (s : State) : (drawSample s).resp = s.resp := rfl
@[simp] theorem drawSample_build (s : State) : (drawSample s).build = s.build := rfl
@[simp] theorem drawSample_trace (s : State) : (drawSample s).trace = s.trace ++ [.adcSample (nextSample s)] := rfl
@[simp] theorem drawSample_cmds (s : State) : (drawSample s).cmds = s.cmds := rfl
@[simp] theorem drawSample_adcIn (s : State) : (drawSample s).adcIn = s.adcIn.tail := rfl
@[simp] theorem drawSample_adcDraws (s : State) : (drawSample s).adcDraws = s.adcDraws + 1 := rfl
@[simp] theorem drawSample_runRefused (s : State) : (drawSample s).runRefused = s.runRefused := rfl

@[simp] theorem presentWord_srd (w : CmdWord) (s : State) : (presentWord w s).srd = s.srd := rfl
@[simp] theorem presentWord_chain (w : CmdWord) (s : State) : (presentWord w s).chain = s.chain := rfl
@[simp] theorem presentWord_led (w : CmdWord) (s : State) : (presentWord w s).led = s.led := rfl
@[simp] theorem presentWord_amx (w : CmdWord) (s : State) : (presentWord w s).amx = s.amx := rfl
@[simp] theorem presentWord_resp (w : CmdWord) (s : State) : (presentWord w s).resp = s.resp := rfl
@[simp] theorem presentWord_build (w : CmdWord) (s : State) : (presentWord w s).build = s.build := rfl
@[simp] theorem presentWord_trace (w : CmdWord) (s : State) : (presentWord w s).trace = s.trace := rfl
@[simp] theorem presentWord_cmds (w : CmdWord) (s : State) : (presentWord w s).cmds = w :: s.cmds := rfl
@[simp] theorem presentWord_adcIn (w : CmdWord) (s : State) : (presentWord w s).adcIn = s.adcIn := rfl
@[simp] theorem presentWord_adcDraws (w : CmdWord) (s : State) : (presentWord w s).adcDraws = s.adcDraws := rfl
@[simp] theorem presentWord_runRefused (w : CmdWord) (s : State) : (presentWord w s).runRefused = s.runRefused := rfl

@[simp] theorem illegalWord_srd (s : State) : (illegalWord s).srd = s.srd := rfl
@[simp] theorem illegalWord_chain (s : State) : (illegalWord s).chain = s.chain := rfl
@[simp] theorem illegalWord_led (s : State) : (illegalWord s).led = s.led := rfl
@[simp] theorem illegalWord_amx (s : State) : (illegalWord s).amx = s.amx := rfl
@[simp] theorem illegalWord_resp (s : State) : (illegalWord s).resp = 0 := rfl
@[simp] theorem illegalWord_build (s : State) : (illegalWord s).build = s.build := rfl
@[simp] theorem illegalWord_trace (s : State) : (illegalWord s).trace = s.trace := rfl
@[simp] theorem illegalWord_cmds (s : State) : (illegalWord s).cmds = s.cmds := rfl
@[simp] theorem illegalWord_adcIn (s : State) : (illegalWord s).adcIn = s.adcIn := rfl
@[simp] theorem illegalWord_adcDraws (s : State) : (illegalWord s).adcDraws = s.adcDraws := rfl
@[simp] theorem illegalWord_runRefused (s : State) : (illegalWord s).runRefused = true := rfl

@[simp] theorem chainReact_srd (l : Line) (v : Bool) (s : State) : (chainReact l v s).srd = s.srd := by
  cases l <;> simp only [chainReact] <;> (try split) <;> rfl
@[simp] theorem chainReact_led (l : Line) (v : Bool) (s : State) : (chainReact l v s).led = s.led := by
  cases l <;> simp only [chainReact] <;> (try split) <;> rfl
@[simp] theorem chainReact_amx (l : Line) (v : Bool) (s : State) : (chainReact l v s).amx = s.amx := by
  cases l <;> simp only [chainReact] <;> (try split) <;> rfl
@[simp] theorem chainReact_resp (l : Line) (v : Bool) (s : State) : (chainReact l v s).resp = s.resp := by
  cases l <;> simp only [chainReact] <;> (try split) <;> rfl
@[simp] theorem chainReact_build (l : Line) (v : Bool) (s : State) : (chainReact l v s).build = s.build := by
  cases l <;> simp only [chainReact] <;> (try split) <;> rfl
@[simp] theorem chainReact_trace (l : Line) (v : Bool) (s : State) : (chainReact l v s).trace = s.trace := by
  cases l <;> simp only [chainReact] <;> (try split) <;> rfl
@[simp] theorem chainReact_cmds (l : Line) (v : Bool) (s : State) : (chainReact l v s).cmds = s.cmds := by
  cases l <;> simp only [chainReact] <;> (try split) <;> rfl
@[simp] theorem chainReact_adcIn (l : Line) (v : Bool) (s : State) : (chainReact l v s).adcIn = s.adcIn := by
  cases l <;> simp only [chainReact] <;> (try split) <;> rfl
@[simp] theorem chainReact_adcDraws (l : Line) (v : Bool) (s : State) : (chainReact l v s).adcDraws = s.adcDraws := by
  cases l <;> simp only [chainReact] <;> (try split) <;> rfl
@[simp] theorem chainReact_runRefused (l : Line) (v : Bool) (s : State) : (chainReact l v s).runRefused = s.runRefused := by
  cases l <;> simp only [chainReact] <;> (try split) <;> rfl

@[simp] theorem setLevel_chain (l : Line) (v : Bool) (s : State) : (setLevel l v s).chain = s.chain := by cases l <;> rfl
@[simp] theorem setLevel_resp (l : Line) (v : Bool) (s : State) : (setLevel l v s).resp = s.resp := by cases l <;> rfl
@[simp] theorem setLevel_build (l : Line) (v : Bool) (s : State) : (setLevel l v s).build = s.build := by cases l <;> rfl
@[simp] theorem setLevel_trace (l : Line) (v : Bool) (s : State) : (setLevel l v s).trace = s.trace := by cases l <;> rfl
@[simp] theorem setLevel_cmds (l : Line) (v : Bool) (s : State) : (setLevel l v s).cmds = s.cmds := by cases l <;> rfl
@[simp] theorem setLevel_adcIn (l : Line) (v : Bool) (s : State) : (setLevel l v s).adcIn = s.adcIn := by cases l <;> rfl
@[simp] theorem setLevel_adcDraws (l : Line) (v : Bool) (s : State) : (setLevel l v s).adcDraws = s.adcDraws := by cases l <;> rfl
@[simp] theorem setLevel_runRefused (l : Line) (v : Bool) (s : State) : (setLevel l v s).runRefused = s.runRefused := by cases l <;> rfl

@[simp] theorem setDirection_chain (l : Line) (d : Dir) (s : State) : (setDirection l d s).chain = s.chain := by cases l <;> rfl
@[simp] theorem setDirection_resp (l : Line) (d : Dir) (s : State) : (setDirection l d s).resp = s.resp := by cases l <;> rfl
@[simp] theorem setDirection_build (l : Line) (d : Dir) (s : State) : (setDirection l d s).build = s.build := by cases l <;> rfl
@[simp] theorem setDirection_trace (l : Line) (d : Dir) (s : State) : (setDirection l d s).trace = s.trace := by cases l <;> rfl
@[simp] theorem setDirection_cmds (l : Line) (d : Dir) (s : State) : (setDirection l d s).cmds = s.cmds := by cases l <;> rfl
@[simp] theorem setDirection_adcIn (l : Line) (d : Dir) (s : State) : (setDirection l d s).adcIn = s.adcIn := by cases l <;> rfl
@[simp] theorem setDirection_adcDraws (l : Line) (d : Dir) (s : State) : (setDirection l d s).adcDraws = s.adcDraws := by cases l <;> rfl
@[simp] theorem setDirection_runRefused (l : Line) (d : Dir) (s : State) : (setDirection l d s).runRefused = s.runRefused := by cases l <;> rfl

@[simp] theorem lineWrite_resp (l : Line) (v : Bool) (s : State) : (lineWrite l v s).resp = s.resp := by simp [lineWrite]
@[simp] theorem lineWrite_build (l : Line) (v : Bool) (s : State) : (lineWrite l v s).build = s.build := by simp [lineWrite]
@[simp] theorem lineWrite_trace (l : Line) (v : Bool) (s : State) : (lineWrite l v s).trace = s.trace ++ [.lineWrite l (pinOf s l) v] := by simp [lineWrite]
@[simp] theorem lineWrite_cmds (l : Line) (v : Bool) (s : State) : (lineWrite l v s).cmds = s.cmds := by simp [lineWrite]
@[simp] theorem lineWrite_adcIn (l : Line) (v : Bool) (s : State) : (lineWrite l v s).adcIn = s.adcIn := by simp [lineWrite]
@[simp] theorem lineWrite_adcDraws (l : Line) (v : Bool) (s : State) : (lineWrite l v s).adcDraws = s.adcDraws := by simp [lineWrite]
@[simp] theorem lineWrite_runRefused (l : Line) (v : Bool) (s : State) : (lineWrite l v s).runRefused = s.runRefused := by simp [lineWrite]

@[simp] theorem lineDir_chain (l : Line) (d : Dir) (s : State) : (lineDir l d s).chain = s.chain := by simp [lineDir]
@[simp] theorem lineDir_resp (l : Line) (d : Dir) (s : State) : (lineDir l d s).resp = s.resp := by simp [lineDir]
@[simp] theorem lineDir_build (l : Line) (d : Dir) (s : State) : (lineDir l d s).build = s.build := by simp [lineDir]
@[simp] theorem lineDir_trace (l : Line) (d : Dir) (s : State) : (lineDir l d s).trace = s.trace ++ [.lineDir l (pinOf s l) d] := by simp [lineDir]
@[simp] theorem lineDir_cmds (l : Line) (d : Dir) (s : State) : (lineDir l d s).cmds = s.cmds := by simp [lineDir]
@[simp] theorem lineDir_adcIn (l : Line) (d : Dir) (s : State) : (lineDir l d s).adcIn = s.adcIn := by simp [lineDir]
@[simp] theorem lineDir_adcDraws (l : Line) (d : Dir) (s : State) : (lineDir l d s).adcDraws = s.adcDraws := by simp [lineDir]
@[simp] theorem lineDir_runRefused (l : Line) (d : Dir) (s : State) : (lineDir l d s).runRefused = s.runRefused := by simp [lineDir]

@[simp] theorem configureOut_resp (l : Line) (s : State) : (configureOut l s).resp = s.resp := by simp [configureOut]
@[simp] theorem configureOut_build (l : Line) (s : State) : (configureOut l s).build = s.build := by simp [configureOut]
@[simp] theorem configureOut_cmds (l : Line) (s : State) : (configureOut l s).cmds = s.cmds := by simp [configureOut]
@[simp] theorem configureOut_adcIn (l : Line) (s : State) : (configureOut l s).adcIn = s.adcIn := by simp [configureOut]
@[simp] theorem configureOut_adcDraws (l : Line) (s : State) : (configureOut l s).adcDraws = s.adcDraws := by simp [configureOut]
@[simp] theorem configureOut_runRefused (l : Line) (s : State) : (configureOut l s).runRefused = s.runRefused := by simp [configureOut]

@[simp] theorem delay_srd (t : Wait) (s : State) : (delay t s).srd = s.srd := by cases t <;> rfl
@[simp] theorem delay_chain (t : Wait) (s : State) : (delay t s).chain = s.chain := by cases t <;> rfl
@[simp] theorem delay_led (t : Wait) (s : State) : (delay t s).led = s.led := by cases t <;> rfl
@[simp] theorem delay_amx (t : Wait) (s : State) : (delay t s).amx = s.amx := by cases t <;> rfl
@[simp] theorem delay_resp (t : Wait) (s : State) : (delay t s).resp = s.resp := by cases t <;> rfl
@[simp] theorem delay_build (t : Wait) (s : State) : (delay t s).build = s.build := by cases t <;> rfl
@[simp] theorem delay_cmds (t : Wait) (s : State) : (delay t s).cmds = s.cmds := by cases t <;> rfl
@[simp] theorem delay_adcIn (t : Wait) (s : State) : (delay t s).adcIn = s.adcIn := by cases t <;> rfl
@[simp] theorem delay_adcDraws (t : Wait) (s : State) : (delay t s).adcDraws = s.adcDraws := by cases t <;> rfl
@[simp] theorem delay_runRefused (t : Wait) (s : State) : (delay t s).runRefused = s.runRefused := by cases t <;> rfl

end Sys2Proof.Machine
end

