-- ==== Sys2Proof/Laws/Ops.lean ====
section
/-! SUPPORT. What each shared operation does, said once: the transmit, the steps of SR.INIT, a tick's frame, a channel read,
and the order of checks. -/

namespace Sys2Proof.Machine

/-- One group of three writes, from a low shift clock (R80, R81). -/
theorem shiftOut_eq (i : Nat) (s : State) (h : s.srd.lSrclk = false) :
    shiftOut i s =
      { s with
        srd := { s.srd with lSer := s.srd.img.getLsbD i, lSrclk := false }
        chain := { s.chain with shift := shiftIn s.chain.shift (s.srd.img.getLsbD i) }
        trace := s.trace ++ bitEvents (srdLabels s) (s.srd.img.getLsbD i) } := by
  simp [shiftOut, lineWrite, delay, emit, setLevel, chainReact, pinOf, h, bitEvents, srdLabels]

/-- The shift stage after image bits `n - 1` down to 0 have been shifted in (R81). -/
def shiftedBits (img : Half) : Nat → Half → Half
  | 0, r => r
  | n + 1, r => shiftedBits img n (shiftIn r (img.getLsbD n))

theorem shiftIn_eq_or (r : Half) (b : Bool) : shiftIn r b = (r <<< 1) ||| boolResp b := by
  have h2 : r * (2 : Half) = r <<< 1 := by
    apply BitVec.eq_of_toNat_eq
    simp [BitVec.toNat_mul, Nat.shiftLeft_eq]
  rw [shiftIn, h2]
  apply BitVec.add_eq_or_of_and_eq_zero
  apply BitVec.eq_of_getLsbD_eq
  intro i hi
  rcases i with _ | i <;> cases b <;> simp [boolResp]

theorem shiftIn_getLsbD (r : Half) (b : Bool) (k : Nat) (hk : k < 16) :
    (shiftIn r b).getLsbD k = if k = 0 then b else r.getLsbD (k - 1) := by
  rw [shiftIn_eq_or, BitVec.getLsbD_or, BitVec.getLsbD_shiftLeft]
  rcases k with _ | k <;> cases b <;> simp [boolResp, hk]

theorem shiftedBits_getLsbD (img : Half) : ∀ n, n ≤ 16 → ∀ r k, k < 16 →
    (shiftedBits img n r).getLsbD k = if k < n then img.getLsbD k else r.getLsbD (k - n)
  | 0, _, r, k, _ => by simp [shiftedBits]
  | n + 1, hn, r, k, hk => by
    rw [shiftedBits, shiftedBits_getLsbD img n (by omega) _ k hk]
    by_cases h1 : k < n
    · simp [h1, show k < n + 1 by omega]
    · rw [if_neg h1, shiftIn_getLsbD _ _ _ (by omega)]
      by_cases h2 : k = n
      · simp [h2]
      · simp [show ¬ k < n + 1 by omega, show k - n ≠ 0 by omega]; congr 1

theorem shiftedBits_all (img r : Half) : shiftedBits img 16 r = img := by
  apply BitVec.eq_of_getLsbD_eq
  intro i hi
  rw [shiftedBits_getLsbD img 16 (by omega) r i hi, if_pos hi]

theorem shiftOutBits_eq : ∀ (n : Nat) (s : State), s.srd.lSrclk = false →
    shiftOutBits n s =
      { s with
        srd := { s.srd with lSer := if n = 0 then s.srd.lSer else s.srd.img.getLsbD 0 }
        chain := { s.chain with shift := shiftedBits s.srd.img n s.chain.shift }
        trace := s.trace ++ bitsEvents (srdLabels s) s.srd.img n }
  | 0, s, _ => by simp [shiftOutBits, shiftedBits, bitsEvents]
  | n + 1, s, h => by
    rw [shiftOutBits, shiftOut_eq n s h, shiftOutBits_eq n _ rfl]
    rcases s with ⟨srd, chain⟩
    simp only [srdLabels, shiftedBits, bitsEvents, List.append_assoc]
    rcases n with _ | n <;> simp_all

/-- Everything one transmit does, from low clock lines (R80, R82). -/
theorem transmit_eq (s : State) (h1 : s.srd.lSrclk = false) (h2 : s.srd.lRclk = false) :
    transmit s =
      { s with
        srd := { s.srd with lSer := s.srd.img.getLsbD 0 }
        chain := ⟨s.srd.img, s.srd.img⟩
        trace := s.trace ++ transmitEvents (srdLabels s) s.srd.img } := by
  rw [transmit, shiftOutBits_eq 16 s h1, shiftedBits_all]
  simp [latchPulse, lineWrite, delay, emit, setLevel, chainReact, pinOf, h2, transmitEvents, latchEvents, srdLabels]

/-- One group of three writes, from any line levels: everything but the chain (R80). -/
theorem shiftOut_frame (i : Nat) (s : State) :
    shiftOut i s =
      { s with
        srd := { s.srd with lSer := s.srd.img.getLsbD i, lSrclk := false }
        chain := (shiftOut i s).chain
        trace := s.trace ++ bitEvents (srdLabels s) (s.srd.img.getLsbD i) } := by
  unfold shiftOut lineWrite delay emit setLevel chainReact pinOf bitEvents srdLabels
  by_cases h : s.srd.lSrclk = true <;> simp [h]

theorem shiftOutBits_frame : ∀ (n : Nat) (s : State),
    shiftOutBits n s =
      { s with
        srd :=
          { s.srd with
            lSer := if n = 0 then s.srd.lSer else s.srd.img.getLsbD 0
            lSrclk := if n = 0 then s.srd.lSrclk else false }
        chain := (shiftOutBits n s).chain
        trace := s.trace ++ bitsEvents (srdLabels s) s.srd.img n }
  | 0, s => by simp [shiftOutBits, bitsEvents]
  | n + 1, s => by
    rw [shiftOutBits, shiftOutBits_frame n, shiftOut_frame n s]
    simp only [srdLabels, bitsEvents, List.append_assoc]
    rcases n with _ | n <;> simp

/-- One transmit from any line levels: everything but the chain (R80). -/
theorem transmit_frame (s : State) :
    transmit s =
      { s with
        srd := { s.srd with lSer := s.srd.img.getLsbD 0, lSrclk := false, lRclk := false }
        chain := (transmit s).chain
        trace := s.trace ++ transmitEvents (srdLabels s) s.srd.img } := by
  rw [transmit, shiftOutBits_frame 16 s]
  unfold latchPulse lineWrite delay emit setLevel chainReact pinOf transmitEvents latchEvents srdLabels
  by_cases h : s.srd.lRclk = true <;> simp [h]

theorem configureOut_eq (l : Line) (s : State) :
    configureOut l s = lineWrite l false (lineDir l .out s) := rfl

/-- Everything the steps of SR.INIT do, from any state (R83). -/
theorem srdInitSteps_eq (a b c : Pin) (s : State) :
    srdInitSteps a b c s =
      { s with
        srd := ⟨0, a, b, c, .out, .out, .out, false, false, false, true⟩
        chain := ⟨0, 0⟩
        trace := s.trace ++ srdInitEvents ⟨a, b, c, s.build.tSrDelay⟩ } := by
  unfold srdInitSteps
  rw [transmit_eq _ rfl rfl]
  simp [markSrdInited, setImage, configureOut, lineWrite, lineDir, emit, setLevel, setDirection, chainReact, pinOf,
    setPins, srdInitEvents, configureEvents, srdLabels]

/-- The select lines of a channel, `SELk` at bit `k` (R69). -/
def selectBits (ch : Fin 16) : Vector Bool 4 :=
  #v[ch.val.testBit 0, ch.val.testBit 1, ch.val.testBit 2, ch.val.testBit 3]

theorem vector4_ext {α : Type} (u v : Vector α 4) (h0 : u[0] = v[0]) (h1 : u[1] = v[1]) (h2 : u[2] = v[2])
    (h3 : u[3] = v[3]) : u = v := by
  apply Vector.ext
  intro i hi
  interval_cases i <;> assumption

theorem selectChannel_eq (ch : Fin 16) (s : State) :
    selectChannel ch s =
      { s with
        amx := { s.amx with sel := selectBits ch }
        trace := s.trace ++ selectEvents s.build ch } := by
  have four : List.finRange 4 = [0, 1, 2, 3] := by decide
  have e : setEntry (setEntry (setEntry (setEntry s.amx.sel 0 (ch.val.testBit 0)) 1 (ch.val.testBit 1)) 2
      (ch.val.testBit 2)) 3 (ch.val.testBit 3) = selectBits ch := by
    apply vector4_ext <;> simp [selectBits]
  simp only [selectChannel, four, List.foldl_cons, List.foldl_nil, lineWrite, emit, setLevel, chainReact, pinOf,
    selectEvents, List.map_cons, List.map_nil, List.append_assoc, List.cons_append, List.nil_append]
  exact congrArg (fun v => State.mk s.srd s.chain s.led { s.amx with sel := v } s.resp s.build _ s.cmds s.adcIn
    s.adcDraws s.runRefused) e

/-- Everything one channel read does (R144). -/
theorem readChannel_eq (ch : Fin 16) (s : State) :
    readChannel ch s =
      { s with
        amx :=
          { s.amx with
            cur := setEntry s.amx.cur ch (invertSample (nextSample s))
            rep := setEntry s.amx.rep ch
              (reportedValue (changePasses s.build.knobThreshold (invertSample (nextSample s)) s.amx.rep[ch])
                (invertSample (nextSample s)) s.amx.rep[ch])
            chg := setEntry s.amx.chg ch
              (changedFlag s.build.flagSticky
                (changePasses s.build.knobThreshold (invertSample (nextSample s)) s.amx.rep[ch]) s.amx.chg[ch])
            sel := selectBits ch }
        trace := s.trace ++ readEvents s.build ch (nextSample s)
        adcIn := s.adcIn.tail
        adcDraws := s.adcDraws + 1 } := by
  simp only [readChannel, selectChannel_eq, delay, emit, drawSample, storeSample, nextSample, readEvents,
    List.append_assoc]
  rfl

theorem nextSample_eq (s : State) : nextSample s = sampleAt s 0 := by
  rcases h : s.adcIn with _ | ⟨r, rs⟩ <;> simp [nextSample, sampleAt, h]

theorem readChannel_sampleAt (ch : Fin 16) (s : State) (k : Nat) :
    sampleAt (readChannel ch s) k = sampleAt s (k + 1) := by
  rw [readChannel_eq]
  simp only [sampleAt, List.getElem?_tail]
  congr 2; omega

/-- The image after the SetBit steps of a tick, bit by bit (R115, R102). -/
theorem writeFrame_bit (s : State) (i : Fin 16) :
    (writeFrame s).srd.img.getLsbD (ledBit s.build i).val = pwmOn (phaseOf s.led.dc) s.led.b[i] := by
  have inj : ∀ i j : Fin 16, (ledBit s.build i).val = (ledBit s.build j).val → i = j :=
    fun i j h => s.build.ledMap.injective i j (Fin.ext h)
  have key : ∀ (is : List (Fin 16)) (t : State),
      (is.foldl (fun t i => setImage (setBit t.srd.img (ledBit s.build i) (pwmOn (phaseOf s.led.dc) s.led.b[i])) t) t
        ).srd.img.getLsbD (ledBit s.build i).val =
        if i ∈ is then pwmOn (phaseOf s.led.dc) s.led.b[i] else t.srd.img.getLsbD (ledBit s.build i).val := by
    intro is
    induction is with
    | nil => intro t; simp
    | cons j js ih =>
      intro t
      rw [List.foldl_cons, ih]
      by_cases h1 : i ∈ js
      · simp [h1]
      · rw [if_neg h1, setImage_srd, setBit_getLsbD]
        by_cases h2 : i = j
        · simp [h2]
        · rw [if_neg (fun e => h2 (inj _ _ e)), if_neg (by simp [h1, h2])]
  rw [writeFrame, key]
  simp

/-- The SetBit steps of a tick change the image and nothing else (R115). -/
theorem writeFrame_eq (s : State) : writeFrame s = setImage (writeFrame s).srd.img s := by
  have key : ∀ (is : List (Fin 16)) (f : Fin 16 → Half → Half) (t : State),
      is.foldl (fun t i => setImage (f i t.srd.img) t) t =
        setImage (is.foldl (fun t i => setImage (f i t.srd.img) t) t).srd.img t := by
    intro is f
    induction is with
    | nil => intro t; rfl
    | cons j js ih => intro t; rw [List.foldl_cons, ih]; rfl
  exact key _ (fun i v => setBit v (ledBit s.build i) (pwmOn (phaseOf s.led.dc) s.led.b[i])) s

/-- Line writes to a list of LED lines (R124). -/
theorem foldl_ledpin_eq (f : Fin 8 → Bool) (is : List (Fin 8)) (s : State) :
    is.foldl (fun t i => lineWrite (.ledpin i) (f i) t) s =
      { s with
        led := { s.led with pinLevel := is.foldl (fun v i => setEntry v i (f i)) s.led.pinLevel }
        trace := s.trace ++ is.map (fun i => .lineWrite (.ledpin i) s.build.ledGpioPins[i] (f i)) } := by
  induction is generalizing s with
  | nil => simp
  | cons i is ih =>
    rw [List.foldl_cons, ih]
    simp [lineWrite, emit, setLevel, chainReact, pinOf]

/-- Everything the line writes of a `GPIO8` tick do (R124). -/
theorem writePins_eq (s : State) :
    writePins s =
      { s with
        led :=
          { s.led with
            pinLevel := (List.finRange 8).foldl
              (fun v i => setEntry v i (pwmOn (phaseOf s.led.dc) s.led.b[i.castLE (by decide : 8 ≤ 16)])) s.led.pinLevel }
        trace := s.trace ++
          pinsTickEvents s.build (fun i => pwmOn (phaseOf s.led.dc) s.led.b[i.castLE (by decide : 8 ≤ 16)]) } :=
  foldl_ledpin_eq _ _ s

/-- Configuring a list of LED lines (R124). -/
theorem foldl_configure_ledpin_eq (is : List (Fin 8)) (s : State) :
    is.foldl (fun t i => configureOut (.ledpin i) t) s =
      { s with
        led :=
          { s.led with
            pinLevel := is.foldl (fun v i => setEntry v i false) s.led.pinLevel
            pinDir := is.foldl (fun v i => setEntry v i .out) s.led.pinDir }
        trace := s.trace ++ is.flatMap (fun i => configureEvents (.ledpin i) s.build.ledGpioPins[i]) } := by
  induction is generalizing s with
  | nil => simp
  | cons i is ih =>
    rw [List.foldl_cons, ih]
    simp [configureOut, lineWrite, lineDir, emit, setLevel, setDirection, chainReact, pinOf, configureEvents]

/-- Configuring a list of select lines (R147). -/
theorem foldl_configure_sel_eq (ks : List (Fin 4)) (s : State) :
    ks.foldl (fun t k => configureOut (.sel k) t) s =
      { s with
        amx :=
          { s.amx with
            sel := ks.foldl (fun v k => setEntry v k false) s.amx.sel
            selDir := ks.foldl (fun v k => setEntry v k .out) s.amx.selDir }
        trace := s.trace ++ ks.flatMap (fun k => configureEvents (.sel k) s.build.muxSelPins[k]) } := by
  induction ks generalizing s with
  | nil => simp
  | cons k ks ih =>
    rw [List.foldl_cons, ih]
    simp [configureOut, lineWrite, lineDir, emit, setLevel, setDirection, chainReact, pinOf, configureEvents]

theorem foldl_setEntry_getElem {α : Type} {n : Nat} (f : Fin n → α) (is : List (Fin n)) (v : Vector α n) (j : Fin n) :
    (is.foldl (fun v i => setEntry v i (f i)) v)[j.val] = if j ∈ is then f j else v[j.val] := by
  induction is generalizing v with
  | nil => simp
  | cons i is ih =>
    rw [List.foldl_cons, ih, setEntry_getElem]
    by_cases h1 : j ∈ is
    · simp [h1]
    · by_cases h2 : j = i
      · simp [h2]
      · have : i.val ≠ j.val := fun e => h2 (Fin.ext e.symm)
        simp [h1, h2, this]

theorem foldl_setEntry_all {α : Type} {n : Nat} (f : Fin n → α) (v : Vector α n) (j : Fin n) :
    ((List.finRange n).foldl (fun v i => setEntry v i (f i)) v)[j.val] = f j := by
  rw [foldl_setEntry_getElem]; simp

/-- The last check of R175. -/
theorem ifInited_next (u : Unit3) (flag : Bool) (s t : State) :
    ifInited u flag s = .next t ↔ flag = true ∧ s = t := by
  cases flag <;> simp [ifInited]

/-- A next state of an SR or AMX command with an index: ignored, or the effect of an initialised unit (R175). -/
theorem indexedCommand_next (u : Unit3) (flag : Bool) (a : Byte) (s t : State) (f : Fin 16 → State) :
    indexedCommand u flag a s f = .next t ↔
      (index16 a = none ∧ ignoreCall s = t) ∨ ∃ i, index16 a = some i ∧ flag = true ∧ f i = t := by
  rcases h : index16 a with _ | i <;> simp [indexedCommand, h, ifInited_next]

/-- A next state of a LED command with an index (R113, R175). -/
theorem ledIndexedCommand_next (a : Byte) (s t : State) (f : Fin 16 → State) :
    ledIndexedCommand a s f = .next t ↔
      (ledIndex (backendOf s.build) a = none ∧ ignoreCall s = t) ∨
        ∃ i, ledIndex (backendOf s.build) a = some i ∧ s.led.inited = true ∧ f i = t := by
  rcases h : ledIndex (backendOf s.build) a with _ | i <;> simp [ledIndexedCommand, h, ifInited_next]

/-- A next state of a LED command without an index (R123, R172). -/
theorem ledCommand_next (s t e : State) :
    ledCommand s e = .next t ↔
      (backendOf s.build = .disabled ∧ ignoreCall s = t) ∨
        (backendOf s.build ≠ .disabled ∧ s.led.inited = true ∧ e = t) := by
  rcases h : backendOf s.build <;> simp [ledCommand, h, ifInited_next]

end Sys2Proof.Machine
end

