-- ==== Sys2Proof/Laws/Meanings.lean ====
section
/-! SUPPORT. When each meaning, and a step, answers a next state, and which: cited in place of unfolding. -/

namespace Sys2Proof.Machine

theorem execSrInit_next (a b c : Pin) (s t : State) :
    execSrInit a b c s = .next t ↔
      pinsDistinct a b c = true ∧
        t = { s with
              srd := ⟨0, a, b, c, .out, .out, .out, false, false, false, true⟩
              chain := ⟨0, 0⟩
              trace := s.trace ++ srdInitEvents ⟨a, b, c, s.build.tSrDelay⟩
              resp := 0 } := by
  rw [execSrInit, srdInitSteps_eq]
  cases h : pinsDistinct a b c <;> simp [respond, eq_comm]

theorem execSrSetbit_next (a : Byte) (on : Bool) (s t : State) :
    execSrSetbit a on s = .next t ↔
      (index16 a = none ∧ ignoreCall s = t) ∨
        ∃ p, index16 a = some p ∧ s.srd.inited = true ∧ respond 0 (setImage (setBit s.srd.img p on) s) = t :=
  indexedCommand_next ..

theorem execSrGetbit_next (a : Byte) (s t : State) :
    execSrGetbit a s = .next t ↔
      (index16 a = none ∧ ignoreCall s = t) ∨
        ∃ p, index16 a = some p ∧ s.srd.inited = true ∧ respond (boolResp (s.srd.img.getLsbD p.val)) s = t :=
  indexedCommand_next ..

theorem execSrGetstate_next (s t : State) :
    execSrGetstate s = .next t ↔ s.srd.inited = true ∧ respond s.srd.img s = t :=
  ifInited_next ..

theorem execSrUpdate_next (s t : State) :
    execSrUpdate s = .next t ↔ s.srd.inited = true ∧ respond 0 (transmit s) = t :=
  ifInited_next ..

theorem execSrClear_next (s t : State) :
    execSrClear s = .next t ↔ s.srd.inited = true ∧ respond 0 (transmit (setImage 0 s)) = t :=
  ifInited_next ..

theorem execSrSetall_next (x : Half) (s t : State) :
    execSrSetall x s = .next t ↔ s.srd.inited = true ∧ respond 0 (transmit (setImage x s)) = t :=
  ifInited_next ..

theorem execMapL2b_next (a : Byte) (s t : State) :
    execMapL2b a s = .next t ↔
      (index16 a = none ∧ ignoreCall s = t) ∨
        ∃ i, index16 a = some i ∧ respond (bitResp (ledBit s.build i)) s = t := by
  rcases h : index16 a with _ | i <;> simp [execMapL2b, h]

theorem execLedInit_next (s t : State) : execLedInit s = .next t ↔ respond 0 (ledInitSteps s) = t := by
  simp [execLedInit]

/-- Zeroing every LED of the sixteen-LED backend (R111). -/
theorem darken_all (b : Vector Byte 16) : darken (ledIndices .shift16) b = Vector.replicate 16 0 := by
  apply Vector.ext
  intro i hi
  rw [darken_getElem _ _ ⟨i, hi⟩, if_pos ((mem_ledIndices _ _).mpr hi), Vector.getElem_replicate]

theorem ledInitSteps_shift16 (s : State) (h : backendOf s.build = .shift16) :
    ledInitSteps s =
      { s with
        srd :=
          ⟨0, s.build.srPins.ser, s.build.srPins.clk, s.build.srPins.latch, .out, .out, .out, false, false, false, true⟩
        chain := ⟨0, 0⟩
        led := { s.led with b := Vector.replicate 16 0, dc := 0, cc := 0, inited := true }
        trace := s.trace ++
          srdInitEvents ⟨s.build.srPins.ser, s.build.srPins.clk, s.build.srPins.latch, s.build.tSrDelay⟩ } := by
  simp only [ledInitSteps]
  simp only [h]
  rw [srdInitSteps_eq]
  simp only [zeroEngine, h, darken_all]
  rfl

theorem ledInitSteps_gpio8 (s : State) (h : backendOf s.build = .gpio8) :
    ledInitSteps s =
      { s with
        led :=
          { s.led with
            b := darken (ledIndices .gpio8) s.led.b
            dc := 0
            cc := 0
            pinLevel := Vector.replicate 8 false
            pinDir := Vector.replicate 8 .out
            inited := true }
        trace := s.trace ++ pinsInitEvents s.build } := by
  have h1 : (List.finRange 8).foldl (fun v i => setEntry v i false) s.led.pinLevel = Vector.replicate 8 false := by
    apply Vector.ext; intro i hi
    rw [foldl_setEntry_all (fun _ => false) _ ⟨i, hi⟩, Vector.getElem_replicate]
  have h2 : (List.finRange 8).foldl (fun v i => setEntry v i Dir.out) s.led.pinDir = Vector.replicate 8 .out := by
    apply Vector.ext; intro i hi
    rw [foldl_setEntry_all (fun _ => Dir.out) _ ⟨i, hi⟩, Vector.getElem_replicate]
  simp only [ledInitSteps]
  simp only [h, zeroEngine, foldl_configure_ledpin_eq, h1, h2]
  rfl

theorem ledInitSteps_disabled (s : State) (h : backendOf s.build = .disabled) : ledInitSteps s = s := by
  simp only [ledInitSteps, h]

theorem execLedUpdate_next (s t : State) :
    execLedUpdate s = .next t ↔
      (backendOf s.build = .disabled ∧ ignoreCall s = t) ∨
        (backendOf s.build ≠ .disabled ∧ s.led.inited = true ∧ respond 0 (tickSteps s) = t) :=
  ledCommand_next ..

theorem execLedSet_next (a : Byte) (x : Half) (s t : State) :
    execLedSet a x s = .next t ↔
      (ledIndex (backendOf s.build) a = none ∧ ignoreCall s = t) ∨
        ∃ i, ledIndex (backendOf s.build) a = some i ∧ s.led.inited = true ∧
          respond 0 (setBrightness (setEntry s.led.b i (scale x)) s) = t :=
  ledIndexedCommand_next ..

theorem execLedAdd_next (a : Byte) (x : Half) (s t : State) :
    execLedAdd a x s = .next t ↔
      (ledIndex (backendOf s.build) a = none ∧ ignoreCall s = t) ∨
        ∃ i, ledIndex (backendOf s.build) a = some i ∧ s.led.inited = true ∧
          respond 0 (setBrightness (setEntry s.led.b i (addSaturate s.led.b[i] x)) s) = t :=
  ledIndexedCommand_next ..

theorem execLedSetall_next (x : Half) (s t : State) :
    execLedSetall x s = .next t ↔
      (backendOf s.build = .disabled ∧ ignoreCall s = t) ∨
        (backendOf s.build ≠ .disabled ∧ s.led.inited = true ∧
          respond 0 (setBrightness
            (spread (ledIndices (backendOf s.build)) (setallBudget (backendOf s.build) x) s.led.b) s) = t) :=
  ledCommand_next ..

theorem execLedSetbin_next (c : Byte) (s t : State) :
    execLedSetbin c s = .next t ↔
      (backendOf s.build = .disabled ∧ ignoreCall s = t) ∨
        (backendOf s.build ≠ .disabled ∧ s.led.inited = true ∧
          respond 0 (setBrightness (showByte c s.led.b) s) = t) :=
  ledCommand_next ..

theorem execLedOn_next (a : Byte) (s t : State) :
    execLedOn a s = .next t ↔
      (ledIndex (backendOf s.build) a = none ∧ ignoreCall s = t) ∨
        ∃ i, ledIndex (backendOf s.build) a = some i ∧ s.led.inited = true ∧
          respond 0 (setBrightness
            (setEntry (darken (ledIndices (backendOf s.build)) s.led.b) i (BitVec.ofNat 8 bMax)) s) = t :=
  ledIndexedCommand_next ..

theorem execLedClear_next (s t : State) :
    execLedClear s = .next t ↔
      (backendOf s.build = .disabled ∧ ignoreCall s = t) ∨
        (backendOf s.build ≠ .disabled ∧ s.led.inited = true ∧
          respond 0 (setBrightness (darken (ledIndices (backendOf s.build)) s.led.b) s) = t) :=
  ledCommand_next ..

theorem execLedCont_next (s t : State) :
    execLedCont s = .next t ↔
      (backendOf s.build = .disabled ∧ ignoreCall s = t) ∨
        (backendOf s.build ≠ .disabled ∧ s.led.inited = true ∧
          (if s.led.cc.toNat + 1 = contPeriod then respond (boolResp true) (setCadence 0 s)
           else respond (boolResp false) (setCadence (s.led.cc + 1) s)) = t) :=
  ledCommand_next ..

theorem execAmxInit_next (f : Half) (s t : State) :
    execAmxInit f s = .next t ↔
      t = { s with
            amx :=
              { smooth := f, cur := Vector.replicate 16 0, rep := Vector.replicate 16 0
                sup := Vector.replicate 16 startupCount, chg := Vector.replicate 16 false
                sel := Vector.replicate 4 false, selDir := Vector.replicate 4 .out, ainDir := .analogIn, inited := true }
            trace := s.trace ++ amxInitEvents s.build
            resp := 0 } := by
  have h1 : (List.finRange 4).foldl (fun v k => setEntry v k false) s.amx.sel = Vector.replicate 4 false := by
    apply Vector.ext; intro i hi
    rw [foldl_setEntry_all (fun _ => false) _ ⟨i, hi⟩, Vector.getElem_replicate]
  have h2 : (List.finRange 4).foldl (fun v k => setEntry v k Dir.out) s.amx.selDir = Vector.replicate 4 .out := by
    apply Vector.ext; intro i hi
    rw [foldl_setEntry_all (fun _ => Dir.out) _ ⟨i, hi⟩, Vector.getElem_replicate]
  rw [execAmxInit, foldl_configure_sel_eq]
  simp only [setSmoothing_amx]
  rw [h1, h2]
  simp [respond, armChannels, lineDir, emit, setDirection, setSmoothing, pinOf, amxInitEvents, eq_comm]

theorem execAmxRead_next (a : Byte) (s t : State) :
    execAmxRead a s = .next t ↔
      (index16 a = none ∧ ignoreCall s = t) ∨
        ∃ ch, index16 a = some ch ∧ s.amx.inited = true ∧ respond 0 (readChannel ch s) = t :=
  indexedCommand_next ..

theorem execAmxReadall_next (s t : State) :
    execAmxReadall s = .next t ↔
      s.amx.inited = true ∧ respond 0 ((List.finRange 16).foldl (fun s ch => readChannel ch s) s) = t :=
  ifInited_next ..

theorem execAmxValue_next (a : Byte) (s t : State) :
    execAmxValue a s = .next t ↔
      (index16 a = none ∧ ignoreCall s = t) ∨
        ∃ ch, index16 a = some ch ∧ s.amx.inited = true ∧ respond (s.amx.rep[ch].setWidth 16) s = t :=
  indexedCommand_next ..

theorem execAmxChanged_next (a : Byte) (s t : State) :
    execAmxChanged a s = .next t ↔
      (index16 a = none ∧ ignoreCall s = t) ∨
        ∃ ch, index16 a = some ch ∧ s.amx.inited = true ∧
          (if s.amx.sup[ch] = 0 then respond (boolResp s.amx.chg[ch]) s
           else respond 0 (setSuppression (setEntry s.amx.sup ch (s.amx.sup[ch] - 1)) s)) = t :=
  indexedCommand_next ..

theorem execAmxReset_next (a : Byte) (s t : State) :
    execAmxReset a s = .next t ↔
      (index16 a = none ∧ ignoreCall s = t) ∨
        ∃ ch, index16 a = some ch ∧ s.amx.inited = true ∧
          respond 0 (setSuppression (setEntry s.amx.sup ch startupCount) s) = t :=
  indexedCommand_next ..

theorem execAmxResetall_next (s t : State) :
    execAmxResetall s = .next t ↔
      s.amx.inited = true ∧ respond 0 (setSuppression (Vector.replicate 16 startupCount) s) = t :=
  ifInited_next ..

/-- When a step answers a next state, and which: idle, the command of the next word, or an illegal word. -/
theorem step_next (s t : State) :
    step s = .next t ↔
      (s.cmds = [] ∧ s = t) ∨
        ∃ w rest, s.cmds = w :: rest ∧
          ((∃ i, decode w = .ok i ∧ exec i { s with cmds := rest } = .next t) ∨
            ∃ e, decode w = .error e ∧ illegalWord { s with cmds := rest } = t) := by
  rcases hc : s.cmds with _ | ⟨w, rest⟩
  · simp [step, takeWord, hc]
  · rcases hd : decode w with e | i <;> simp [step, takeWord, execWord, hc, hd]

end Sys2Proof.Machine
end

