-- ==== Sys2Proof/Laws/PerInstr.lean ====
section
/-! SUPPORT. What holds of every command as syntax, one lemma per command: the word the encoder writes carries the command's
opcode in `W[31:24]` (R60, R62). -/

/-- The opcode field of the encoded word is the command's opcode. -/
def Sys2Proof.Laws.OpcodeField.Statement (i : Sys2Proof.Instr) : Prop :=
  Sys2Proof.opField (Sys2Proof.encode i) = Sys2Proof.opcodeOf i

namespace Sys2Proof.Laws.OpcodeField

theorem srInit (a b c : Pin) : Statement (.srInit a b c) := opField_wordOf ..
theorem srSetbit (a : Byte) (on : Bool) : Statement (.srSetbit a on) := opField_wordOf ..
theorem srGetbit (a : Byte) : Statement (.srGetbit a) := opField_wordOf ..
theorem srGetstate : Statement .srGetstate := opField_wordOf ..
theorem srUpdate : Statement .srUpdate := opField_wordOf ..
theorem srClear : Statement .srClear := opField_wordOf ..
theorem srSetall (x : Half) : Statement (.srSetall x) := opField_wordImm ..
theorem mapL2b (a : Byte) : Statement (.mapL2b a) := opField_wordOf ..
theorem ledInit : Statement .ledInit := opField_wordOf ..
theorem ledUpdate : Statement .ledUpdate := opField_wordOf ..
theorem ledSet (a : Byte) (x : Half) : Statement (.ledSet a x) := opField_wordImm ..
theorem ledAdd (a : Byte) (x : Half) : Statement (.ledAdd a x) := opField_wordImm ..
theorem ledSetall (x : Half) : Statement (.ledSetall x) := opField_wordImm ..
theorem ledSetbin (c : Byte) : Statement (.ledSetbin c) := opField_wordOf ..
theorem ledOn (a : Byte) : Statement (.ledOn a) := opField_wordOf ..
theorem ledClear : Statement .ledClear := opField_wordOf ..
theorem ledCont : Statement .ledCont := opField_wordOf ..
theorem amxInit (x : Half) : Statement (.amxInit x) := opField_wordImm ..
theorem amxRead (a : Byte) : Statement (.amxRead a) := opField_wordOf ..
theorem amxReadall : Statement .amxReadall := opField_wordOf ..
theorem amxValue (a : Byte) : Statement (.amxValue a) := opField_wordOf ..
theorem amxChanged (a : Byte) : Statement (.amxChanged a) := opField_wordOf ..
theorem amxReset (a : Byte) : Statement (.amxReset a) := opField_wordOf ..
theorem amxResetall : Statement .amxResetall := opField_wordOf ..

end Sys2Proof.Laws.OpcodeField
end

