-- ==== Sys2Proof/Tests/Slice0.lean ====
section
/-! SUPPORT. The model's own tests. Expected values come from spec/95_test_vectors.md (the section or program is named) or
from the tables of 30_encoding.md, never from a run of the model. A theorem whose name begins with witness shows a
concrete state and operands that meet all hypotheses of the obligation it names. -/

namespace Sys2Proof.Tests

open Sys2Proof Sys2Proof.Machine

/-- A build with every parameter given: the default table, threshold 100, the pins of P1. -/
def sampleBuild (shift audio : Bool) : Build where
  fShift := shift
  fAudio := audio
  srPins := { ser := 2, clk := 3, latch := 4 }
  ledGpioPins := #v[10, 11, 12, 13, 14, 15, 16, 17]
  muxSelPins := #v[5, 6, 7, 8]
  muxAinPin := 26
  ledMap := {}
  knobThreshold := 100
  flagSticky := false
  tSrDelay := 1
  tSettle := 2

/-- Power-on of a build. -/
def powerOn (bd : Build) : State := { State.reset with build := bd }

/-- Power-on of the three builds. -/
def powerOn16 : State := powerOn (sampleBuild true false)

/-- All three units as their INITs leave them, for a build. -/
def ready (bd : Build) : State :=
  { powerOn bd with
    srd := ⟨0, 2, 3, 4, .out, .out, .out, false, false, false, true⟩
    led := { (powerOn bd).led with pinDir := Vector.replicate 8 .out, inited := backendOf bd != .disabled }
    amx :=
      { (powerOn bd).amx with
        sup := Vector.replicate 16 800, selDir := Vector.replicate 4 .out, ainDir := .analogIn, inited := true } }

/-- All units ready, backend `SHIFT16`. -/
def ready16 : State := ready (sampleBuild true false)
/-- All units ready, backend `GPIO8`. -/
def ready8 : State := ready (sampleBuild false false)
/-- Backend `DISABLED`. -/
def ready0 : State := ready (sampleBuild false true)

/-- What a function shows of the next state of an outcome; `none` if there is none. -/
def shown {α : Type} (o : Host.Outcome State Fault Refusal) (f : State → α) : Option α :=
  match o with
  | .next t => some (f t)
  | .fault _ => none
  | .refused _ => none

/-- With another image. -/
def withImage (v : Half) (s : State) : State := { s with srd := { s.srd with img := v } }
/-- With another brightness table. -/
def withLeds (b : Vector Byte 16) (s : State) : State := { s with led := { s.led with b := b } }
/-- With another duty counter. -/
def withDuty (n : Nat) (s : State) : State := { s with led := { s.led with dc := BitVec.ofNat 32 n } }
/-- With another cadence counter. -/
def withCadence (n : Nat) (s : State) : State := { s with led := { s.led with cc := BitVec.ofNat 10 n } }
/-- With a reported value and flag of channel 3, and the next samples. -/
def withKnob (rep : AdcCode) (chg : Bool) (samples : List AdcCode) (s : State) : State :=
  { s with
    amx := { s.amx with rep := setEntry s.amx.rep 3 rep, chg := setEntry s.amx.chg 3 chg }
    adcIn := samples }
/-- With another startup counter of channel 3. -/
def withWindow (n : Half) (s : State) : State := { s with amx := { s.amx with sup := setEntry s.amx.sup 3 n } }
/-- With both clock lines of the driver high. -/
def withHighClocks (s : State) : State := { s with srd := { s.srd with lSrclk := true, lRclk := true } }
/-- With words issued. -/
def withWords (ws : List CmdWord) (s : State) : State := { s with cmds := ws }

/-! Well-formedness: each of the three inequalities is checked (R83). -/

theorem test_wf_first_two_equal : (Instr.srInit 1 1 2).wellFormed = false := by decide
theorem test_wf_outer_equal : (Instr.srInit 1 2 1).wellFormed = false := by decide
theorem test_wf_last_two_equal : (Instr.srInit 2 1 1).wellFormed = false := by decide
theorem test_wf_distinct : (Instr.srInit 2 3 4).wellFormed = true := by decide

/-! Decoding: the words of 30_encoding.md R67, every constructor; bit by bit once for each format. -/

theorem test_decode_srInit : decode 0b00010000000000100000001100000100 = .ok (.srInit 2 3 4) := by decide
theorem test_decode_srSetbit : decode 0b00010001000001010000000000000001 = .ok (.srSetbit 5 true) := by decide
theorem test_decode_srGetbit : decode 0b00010010000001010000000000000000 = .ok (.srGetbit 5) := by decide
theorem test_decode_srGetstate : decode 0b00010011000000000000000000000000 = .ok .srGetstate := by decide
theorem test_decode_srUpdate : decode 0x14000000 = .ok .srUpdate := by decide
theorem test_decode_srClear : decode 0x15000000 = .ok .srClear := by decide
theorem test_decode_srSetall : decode 0b00010110000000001010101111001101 = .ok (.srSetall 0xABCD) := by decide
theorem test_decode_mapL2b : decode 0b00100000000001110000000000000000 = .ok (.mapL2b 7) := by decide
theorem test_decode_ledInit : decode 0x30000000 = .ok .ledInit := by decide
theorem test_decode_ledUpdate : decode 0x31000000 = .ok .ledUpdate := by decide
theorem test_decode_ledSet : decode 0b00110010000001110000001111101000 = .ok (.ledSet 7 1000) := by decide
theorem test_decode_ledAdd : decode 0x33070064 = .ok (.ledAdd 7 100) := by decide
theorem test_decode_ledSetall : decode 0x340001F4 = .ok (.ledSetall 500) := by decide
theorem test_decode_ledSetbin : decode 0b00110101000000000000000010110000 = .ok (.ledSetbin 0b10110000) := by decide
theorem test_decode_ledOn : decode 0x36030000 = .ok (.ledOn 3) := by decide
theorem test_decode_ledClear : decode 0x37000000 = .ok .ledClear := by decide
theorem test_decode_ledCont : decode 0x38000000 = .ok .ledCont := by decide
theorem test_decode_amxInit : decode 0x40000000 = .ok (.amxInit 0) := by decide
theorem test_decode_amxRead : decode 0b01000001000000110000000000000000 = .ok (.amxRead 3) := by decide
theorem test_decode_amxReadall : decode 0x42000000 = .ok .amxReadall := by decide
theorem test_decode_amxValue : decode 0x43030000 = .ok (.amxValue 3) := by decide
theorem test_decode_amxChanged : decode 0x44030000 = .ok (.amxChanged 3) := by decide
theorem test_decode_amxReset : decode 0x45030000 = .ok (.amxReset 3) := by decide
theorem test_decode_amxResetall : decode 0x46000000 = .ok .amxResetall := by decide

/-- Illegal words at the ends of each gap of the map (R65 a). -/
theorem test_decode_gaps :
    [0x00, 0x0F, 0x17, 0x1F, 0x21, 0x2F, 0x39, 0x3F, 0x47, 0xFF].all
      (fun n => decide (decode (BitVec.ofNat 32 (n * 2 ^ 24)) = .error (.illegalOpcode (BitVec.ofNat 8 n)))) = true := by
  decide

theorem test_table_word : decodeTableWord 32 0x320703E8 = some (.ledSet 7 1000) := by decide
theorem test_fetch_word : step (powerOn16.withFetchWord 32 0x10020304) = exec (.srInit 2 3 4) powerOn16 := by rfl

/-! The shift-register driver (95_test_vectors.md P1, S2, 2.1). -/

theorem test_srInit :
    shown (exec (.srInit 2 3 4) powerOn16) (fun t => (t.srd.pinSer, t.srd.pinLatch, t.srd.img, t.chain.q)) =
      some (2, 4, 0, 0) := by decide
theorem test_srSetbit :
    shown (exec (.srSetbit 1 true) (withImage 0xABCD ready16)) (fun t => (t.srd.img, t.chain.q)) = some (0xABCF, 0) := by
  decide
theorem test_srSetbit_out_of_range :
    shown (exec (.srSetbit 16 true) (withImage 0xABCF ready16)) (fun t => t.srd.img) = some 0xABCF := by decide
theorem test_srGetbit : shown (exec (.srGetbit 1) (withImage 0xABCF ready16)) (fun t => t.resp) = some 1 := by decide
theorem test_srGetstate : shown (exec .srGetstate (withImage 0xABCD ready16)) (fun t => t.resp) = some 0xABCD := by decide
/-- The `SER` sequence of line 8 of P1. -/
theorem test_srUpdate_serial :
    shown (exec .srUpdate (withImage 0xABCF ready16)) (fun t => receivedSamples (newEvents ready16 t)) =
      some [true, false, true, false, true, false, true, true, true, true, false, false, true, true, true, true] := by
  decide
theorem test_srUpdate : shown (exec .srUpdate (withImage 0xABCF ready16)) (fun t => t.chain.q) = some 0xABCF := by decide
theorem test_srClear :
    shown (exec .srClear (withImage 0xABCF ready16)) (fun t => (t.srd.img, t.chain.q)) = some (0, 0) := by decide
theorem test_srSetall :
    shown (exec (.srSetall 0xABCD) ready16) (fun t => (t.srd.img, t.chain.shift, t.chain.q)) =
      some (0xABCD, 0xABCD, 0xABCD) := by decide

/-! The map (S1, 20_memory.md R46). -/

theorem test_mapL2b_fifteen : shown (exec (.mapL2b 15) powerOn16) (fun t => t.resp) = some 15 := by decide
theorem test_mapL2b_seven : shown (exec (.mapL2b 7) { powerOn16 with resp := 9 }) (fun t => t.resp) = some 0 := by decide

/-! The LED engine (2.2 to 2.6, P2, P4, P5). -/

theorem test_scale :
    [0, 3, 4, 100, 500, 999, 1000, 1001, 65535].map (fun x => (scale (BitVec.ofNat 16 x)).toNat) =
      [0, 0, 1, 25, 127, 254, 255, 255, 255] := by decide
theorem test_ledInit :
    shown (exec .ledInit (withDuty 77 powerOn16)) (fun t => (t.led.dc, t.srd.inited, t.srd.pinClk)) =
      some (0, true, 3) := by decide
/-- P5 line 0: eight line writes, and the driver untouched. -/
theorem test_ledInit_gpio8 :
    shown (exec .ledInit (powerOn (sampleBuild false false))) (fun t => (t.trace.countP Event.isLineWrite, t.srd.inited)) =
      some (8, false) := by decide
/-- A LED of brightness 25 with the counter at 23 is lit (2.6). -/
theorem test_ledUpdate_lit :
    shown (exec .ledUpdate (withDuty 23 (withLeds (Vector.replicate 16 25) ready16))) (fun t => (t.led.dc, t.chain.q)) =
      some (24, 0xFFFF) := by decide
/-- The counter wraps from its largest value to 0, and the phase is 0 (2.6). -/
theorem test_ledUpdate_wraps :
    shown (exec .ledUpdate (withDuty (2 ^ 32 - 1) (withLeds (setEntry (Vector.replicate 16 0) 15 255) ready16)))
      (fun t => (t.led.dc, t.chain.q)) = some (0, 0x8000) := by decide
theorem test_ledSet : shown (exec (.ledSet 7 1000) ready16) (fun t => (t.led.b[7], t.chain.q)) = some (255, 0) := by decide
/-- P5 line 3: index 8 is out of range with `GPIO8`. -/
theorem test_ledSet_gpio8_range :
    shown (exec (.ledSet 8 1000) ready8) (fun t => t.led.b) = some (Vector.replicate 16 0) := by decide
theorem test_ledAdd_saturates :
    shown (exec (.ledAdd 7 100) (withLeds (Vector.replicate 16 250) ready16)) (fun t => (t.led.b[7], t.led.b[6])) =
      some (255, 250) := by decide
theorem test_ledAdd_small :
    shown (exec (.ledAdd 7 3) (withLeds (Vector.replicate 16 17) ready16)) (fun t => t.led.b[7]) = some 17 := by decide
theorem test_ledSetall :
    shown (exec (.ledSetall 499) (withLeds (Vector.replicate 16 9) ready16)) (fun t => t.led.b) =
      some #v[255, 255, 255, 255, 255, 255, 255, 250, 0, 0, 0, 0, 0, 0, 0, 0] := by decide
theorem test_ledSetall_gpio8 :
    shown (exec (.ledSetall 125) (withLeds (Vector.replicate 16 9) ready8)) (fun t => (t.led.b[0], t.led.b[1], t.led.b[7])) =
      some (255, 0, 0) := by decide
theorem test_ledSetbin :
    shown (exec (.ledSetbin 0b10110000) (withLeds (Vector.replicate 16 9) ready16)) (fun t => t.led.b) =
      some #v[255, 0, 255, 255, 0, 0, 0, 0, 9, 9, 9, 9, 9, 9, 9, 9] := by decide
theorem test_ledOn :
    shown (exec (.ledOn 15) (withLeds (Vector.replicate 16 9) ready16)) (fun t => t.led.b) =
      some (setEntry (Vector.replicate 16 0) 15 255) := by decide
theorem test_ledOn_out_of_range :
    shown (exec (.ledOn 16) (withLeds (Vector.replicate 16 9) ready16)) (fun t => t.led.b) =
      some (Vector.replicate 16 9) := by decide
theorem test_ledClear :
    shown (exec .ledClear (withImage 0xABCD (withLeds (Vector.replicate 16 9) ready16)))
      (fun t => (t.led.b, t.srd.img, t.trace)) = some (Vector.replicate 16 0, 0xABCD, []) := by decide
theorem test_ledCont_last : shown (exec .ledCont (withCadence 999 ready16)) (fun t => (t.led.cc, t.resp)) = some (0, 1) := by
  decide
theorem test_ledCont_before : shown (exec .ledCont (withCadence 998 ready16)) (fun t => (t.led.cc, t.resp)) = some (999, 0) := by
  decide

/-! The analog multiplexer reader (2.7, 2.8). -/

theorem test_amxInit :
    shown (exec (.amxInit 7) powerOn16) (fun t => (t.amx.smooth, t.amx.sup[15], t.trace.length)) = some (7, 800, 9) := by
  decide
/-- A difference equal to the threshold does not pass, and clears the flag. -/
theorem test_amxRead_equal :
    shown (exec (.amxRead 3) (withKnob 2000 true [1995] ready16)) (fun t => (t.amx.cur[3], t.amx.rep[3], t.amx.chg[3])) =
      some (2100, 2000, false) := by decide
theorem test_amxRead_passes :
    shown (exec (.amxRead 3) (withKnob 2000 false [2196] ready16))
      (fun t => (t.amx.rep[3], t.amx.chg[3], t.amx.sel)) = some (1899, true, #v[true, true, false, false]) := by decide
/-- Sixteen samples, channel 0 first. -/
def scanSamples : List AdcCode := [0, 1, 2, 3, 4, 5, 6, 7, 8, 9, 10, 11, 12, 13, 14, 4095]
theorem test_amxReadall_order :
    shown (exec .amxReadall { ready16 with adcIn := scanSamples }) (fun t => (t.amx.cur[0], t.amx.cur[14], t.amx.cur[15])) =
      some (4095, 4081, 0) := by decide
theorem test_amxReadall_select :
    shown (exec .amxReadall { ready16 with adcIn := scanSamples }) (fun t => (t.amx.sel, t.adcDraws)) =
      some (#v[true, true, true, true], 16) := by decide
theorem test_amxValue :
    shown (exec (.amxValue 3) (withKnob 2150 true [] ready16)) (fun t => t.resp) = some 2150 := by decide
theorem test_amxChanged_window :
    shown (exec (.amxChanged 3) (withWindow 1 (withKnob 0 true [] ready16))) (fun t => (t.amx.sup[3], t.amx.sup[4], t.resp)) =
      some (0, 800, 0) := by decide
theorem test_amxChanged_flag :
    shown (exec (.amxChanged 3) (withWindow 0 (withKnob 0 true [] ready16))) (fun t => (t.amx.chg[3], t.resp)) =
      some (true, 1) := by decide
theorem test_amxReset :
    shown (exec (.amxReset 3) (withWindow 512 (withKnob 2150 true [] ready16)))
      (fun t => (t.amx.sup[3], t.amx.chg[3], t.amx.rep[3])) = some (800, true, 2150) := by decide
theorem test_amxResetall :
    shown (exec .amxResetall (withWindow 0 ready16)) (fun t => t.amx.sup) = some (Vector.replicate 16 800) := by decide

/-! Before INIT (2.9). -/

theorem test_power_on_getstate : exec .srGetstate powerOn16 = .refused (.uninitializedUse .srd) := by rfl
theorem test_power_on_illegal :
    shown (step (withWords [0xFFFFFFFF] { powerOn16 with resp := 5 })) (fun t => (t.resp, t.runRefused)) =
      some (0, true) := by decide

/-! Witnesses: the hypotheses of each obligation, met together, at the ends of their ranges. -/

theorem decode_gap : decode 0x47000000 = .error (.illegalOpcode 0x47) := by decide
theorem illegal_gap (i : Instr) : decode 0x47000000 ≠ .ok i := by rw [decode_gap]; exact fun h => nomatch h

/-- The states `ready16` and `ready8` meet the invariant. -/
theorem ready16_inv : ready16.Inv := by
  refine ⟨?_, ?_, ?_, ?_, ?_, ?_, ?_, ?_, ?_, ?_, ?_⟩ <;> decide
theorem ready8_inv : ready8.Inv := by
  refine ⟨?_, ?_, ?_, ?_, ?_, ?_, ?_, ?_, ?_, ?_, ?_⟩ <;> decide

theorem witness_ReservedFieldsAreIgnored : decode 0x1103FFFF = .ok (.srSetbit 3 true) := by decide
theorem witness_LegalOpcodesAreTheMap : ¬ ∃ i : Instr, decode 0x47000000 = .ok i := fun ⟨i, h⟩ => illegal_gap i h
theorem witness_StepRunsDecodedCommand :
    (withWords [0x13000000, 0x14000000] ready16).cmds = 0x13000000 :: [0x14000000] ∧ decode 0x13000000 = .ok .srGetstate :=
  ⟨rfl, by decide⟩
theorem witness_IllegalWordOnlyClearsResponse :
    (withWords [0x47000000] ready16).cmds = 0x47000000 :: [] ∧ ∀ i : Instr, decode 0x47000000 ≠ .ok i :=
  ⟨rfl, illegal_gap⟩
theorem witness_IdleStepChangesNothing : powerOn16.cmds = [] := rfl
theorem witness_OutOfRangeIndexIsIgnored :
    16 ≤ (16 : Byte).toNat ∧ nLed (backendOf ready16.build) ≤ (16 : Byte).toNat ∧
      nLed (backendOf ready8.build) ≤ (8 : Byte).toNat := by decide
theorem witness_DisabledBackendIgnoresLedCommands :
    unitOf .ledInit = some .led ∧ unitOf (.ledSet 0 0) = some .led ∧ backendOf ready0.build = .disabled := by decide
theorem witness_CommandsCompleteExactlyWhenInitialised :
    (Instr.srInit 2 3 4).wellFormed = true ∧ neededUnit powerOn16 (.srInit 2 3 4) = none ∧
      neededUnit ready16 (.srSetbit 15 true) = some .srd ∧ ghostFlag ready16 .srd = true ∧
      neededUnit powerOn16 (.srSetbit 15 true) = some .srd ∧ ghostFlag powerOn16 .srd = false := by decide
theorem witness_SrInitReachesKnownState : (2 : Pin) ≠ 3 ∧ (2 : Pin) ≠ 4 ∧ (3 : Pin) ≠ 4 := by decide
theorem witness_SrInitEqualPinsRefused :
    ((1 : Pin) = 1 ∨ (1 : Pin) = 2 ∨ (1 : Pin) = 2) ∧ ((1 : Pin) = 2 ∨ (1 : Pin) = 1 ∨ (2 : Pin) = 1) ∧
      ((2 : Pin) = 1 ∨ (2 : Pin) = 1 ∨ (1 : Pin) = 1) := by decide
theorem witness_SetbitWritesOneImageBit : ready16.srd.inited = true ∧ (15 : Byte).toNat < 16 := by decide
theorem witness_ImageQueriesRespond : ready16.srd.inited = true ∧ (15 : Byte).toNat < 16 := by decide
theorem witness_SetbitGetbitRoundTrip :
    ready16.srd.inited = true ∧ (15 : Byte).toNat < 16 ∧ (0 : Byte).toNat < 16 ∧ (0 : Byte) ≠ 15 := by decide
theorem witness_TransmitMovesImageToOutputs :
    (withImage 0xABCD ready16).srd.lSrclk = false ∧ (withImage 0xABCD ready16).srd.lRclk = false ∧ 0 ≤ 16 ∧ 16 ≤ 16 := by
  decide
theorem witness_TransmittingCommandsDeliverImage :
    ready16.srd.inited = true ∧ ready16.srd.lSrclk = false ∧ ready16.srd.lRclk = false := by decide
theorem witness_SerialFrameReconstructsImage :
    ready16.srd.inited = true ∧ ready16.srd.lSrclk = false ∧ ready16.srd.lRclk = false ∧ 15 < 16 := by decide
theorem witness_EventCountsAreFixed :
    backendOf ready16.build = .shift16 ∧ ∃ t, exec (.srSetall 0xABCD) ready16 = .next t := ⟨rfl, _, rfl⟩
theorem witness_MapRespondsAdmissibleTable :
    (15 : Byte).toNat < 16 ∧ 16 ≤ (16 : Byte).toNat ∧ ∃ t, step (withWords [0x20070000] powerOn16) = .next t :=
  ⟨by decide, by decide, _, rfl⟩
theorem witness_RescaleIsClampedProportionalMonotone :
    1000 ≤ (1000 : Half).toNat ∧ (999 : Half).toNat ≤ (1000 : Half).toNat := by decide
theorem witness_LedSetStoresBrightness :
    ready16.led.inited = true ∧ (15 : Byte).toNat < nLed (backendOf ready16.build) ∧
      ready8.led.inited = true ∧ (7 : Byte).toNat < nLed (backendOf ready8.build) := by decide
theorem witness_LedAddSaturates :
    ready16.led.inited = true ∧ (15 : Byte).toNat < nLed (backendOf ready16.build) ∧
      ready8.led.inited = true ∧ (7 : Byte).toNat < nLed (backendOf ready8.build) := by decide
theorem witness_LedSetallDistributesBudget :
    ready16.led.inited = true ∧ backendOf ready16.build ≠ .disabled ∧
      ready8.led.inited = true ∧ backendOf ready8.build ≠ .disabled := by decide
theorem witness_LedSetbinShowsByteMsbFirst : ready16.led.inited = true ∧ backendOf ready16.build ≠ .disabled := by decide
theorem witness_LedOnAndClearDarkenTheRest :
    ready8.led.inited = true ∧ backendOf ready8.build ≠ .disabled ∧ (7 : Byte).toNat < nLed (backendOf ready8.build) := by
  decide
theorem witness_LedContAdvancesCadence :
    (withCadence 999 ready16).led.inited = true ∧ backendOf (withCadence 999 ready16).build ≠ .disabled ∧
      (withCadence 999 ready16).led.cc.toNat < 1000 := by decide
theorem witness_CadenceAnswersOncePerThousand :
    (withCadence 999 ready16).led.inited = true ∧ backendOf (withCadence 999 ready16).build ≠ .disabled ∧
      (withCadence 999 ready16).led.cc.toNat < 1000 ∧ 999 < 1000 := by decide
theorem witness_LedInitShift16ReachesKnownState : backendOf powerOn16.build = .shift16 := by decide
theorem witness_LedInitGpio8ReachesKnownState : backendOf ready8.build = .gpio8 := by decide
theorem witness_LedUpdateShift16TransmitsFrame :
    ready16.led.inited = true ∧ backendOf ready16.build = .shift16 ∧ ready16.srd.lSrclk = false ∧
      ready16.srd.lRclk = false := by decide
theorem witness_LedUpdateGpio8WritesLines : ready8.led.inited = true ∧ backendOf ready8.build = .gpio8 := by decide
theorem witness_DutyIsBrightnessOver256 :
    ready16.led.inited = true ∧ (15 : Fin 16).val < nLed (backendOf ready16.build) ∧
      (backendOf ready16.build = .shift16 → ready16.srd.lSrclk = false ∧ ready16.srd.lRclk = false) := by decide
theorem witness_DutyIsBrightnessOver256_gpio8 :
    let s := withHighClocks ready8
    s.led.inited = true ∧ (7 : Fin 16).val < nLed (backendOf s.build) ∧
      (backendOf s.build = .shift16 → s.srd.lSrclk = false ∧ s.srd.lRclk = false) := by decide
theorem witness_HigherIntensityNeverLitLess :
    ready16.led.inited = true ∧ (15 : Fin 16).val = (15 : Byte).toNat ∧ (15 : Fin 16).val < nLed (backendOf ready16.build) ∧
      (backendOf ready16.build = .shift16 → ready16.srd.lSrclk = false ∧ ready16.srd.lRclk = false) ∧
      (999 : Half).toNat ≤ (1000 : Half).toNat := by decide
theorem witness_HigherIntensityNeverLitLess_gpio8 :
    let s := withHighClocks ready8
    s.led.inited = true ∧ (7 : Fin 16).val = (7 : Byte).toNat ∧ (7 : Fin 16).val < nLed (backendOf s.build) ∧
      (backendOf s.build = .shift16 → s.srd.lSrclk = false ∧ s.srd.lRclk = false) ∧
      (999 : Half).toNat ≤ (1000 : Half).toNat := by decide
theorem witness_FullBankFrames_all :
    let s := withDuty 254 (withLeds (Vector.replicate 16 255) ready16)
    s.led.inited = true ∧ backendOf s.build = .shift16 ∧ s.srd.lSrclk = false ∧ s.srd.lRclk = false ∧
      ∀ i : Fin 16, s.led.b[i] = 255 := by decide
theorem witness_FullBankFrames_steps :
    let s := withLeds #v[255, 255, 255, 255, 255, 255, 255, 255, 0, 0, 0, 0, 0, 0, 0, 0] ready16
    s.led.inited = true ∧ backendOf s.build = .shift16 ∧ s.srd.lSrclk = false ∧ s.srd.lRclk = false ∧
      ∀ i : Fin 16, s.led.b[i] = if i.val < 8 then 255 else 0 := by decide
theorem witness_AmxReadSamplesAndCompares_passes :
    let s := withKnob 2000 false [1994] ready16
    s.amx.inited = true ∧
      (s.build.knobThreshold.toNat : Int) < |((4095 - (sampleAt s 0).toNat : Nat) : Int) - s.amx.rep[(3 : Fin 16)].toNat| ∧
      (0 : Fin 16) ≠ 3 := by decide
theorem witness_AmxReadSamplesAndCompares_equal :
    let s := withKnob 2000 false [1995] ready16
    s.amx.inited = true ∧
      ¬ (s.build.knobThreshold.toNat : Int) <
          |((4095 - (sampleAt s 0).toNat : Nat) : Int) - s.amx.rep[(3 : Fin 16)].toNat| := by decide
theorem witness_AmxReadallScansInOrder_passes :
    let s := withKnob 2000 false [0, 0, 0, 1994] ready16
    s.amx.inited = true ∧
      (s.build.knobThreshold.toNat : Int) <
          |((4095 - (sampleAt s 3).toNat : Nat) : Int) - s.amx.rep[(3 : Fin 16)].toNat| := by decide
theorem witness_AmxReadallScansInOrder_equal :
    let s := withKnob 2000 false [0, 0, 0, 1995] ready16
    s.amx.inited = true ∧
      ¬ (s.build.knobThreshold.toNat : Int) <
          |((4095 - (sampleAt s 3).toNat : Nat) : Int) - s.amx.rep[(3 : Fin 16)].toNat| := by decide
theorem witness_AmxValueRespondsReported : ready16.amx.inited = true := by decide
theorem witness_AmxChangedPollsWindowThenFlag :
    (withWindow 0 ready16).amx.inited = true ∧ (withWindow 0 ready16).amx.sup[(3 : Fin 16)].toNat = 0 ∧
      (withWindow 1 ready16).amx.inited = true ∧ (withWindow 1 ready16).amx.sup[(3 : Fin 16)].toNat ≠ 0 := by decide
theorem witness_AmxResetRearmsWindowOnly : ready16.amx.inited = true := by decide
theorem witness_StartupWindowSuppressesPolls :
    ready16.amx.inited = true ∧ 799 < ready16.amx.sup[(3 : Fin 16)].toNat ∧ ready16.amx.sup[(3 : Fin 16)].toNat ≤ 800 := by
  decide
theorem witness_ReportedValueHasHysteresis_moves :
    (∀ f, Instr.amxRead 3 ≠ .amxInit f) ∧
      ∃ t, exec (.amxRead 3) (withKnob 2000 false [1994] ready16) = .next t ∧
        t.amx.rep[(3 : Fin 16)] ≠ (withKnob 2000 false [1994] ready16).amx.rep[(3 : Fin 16)] :=
  ⟨fun _ h => (nomatch h), _, rfl, by decide⟩
theorem witness_ReportedValueHasHysteresis_scan :
    ∃ t, exec .amxReadall { withKnob 2000 false [] ready16 with adcIn := List.replicate 16 1995 } = .next t ∧
      t.amx.rep[(3 : Fin 16)] = (withKnob 2000 false [] ready16).amx.rep[(3 : Fin 16)] :=
  ⟨_, rfl, by decide⟩
theorem witness_ReportedValueHasHysteresis_rests :
    ∃ t, exec (.amxRead (BitVec.ofNat 8 (3 : Fin 16).val)) (withKnob 2000 false [1995] ready16) = .next t ∧
      t.amx.rep[(3 : Fin 16)] = (withKnob 2000 false [1995] ready16).amx.rep[(3 : Fin 16)] :=
  ⟨_, rfl, by decide⟩
theorem witness_UnitsKeepToTheirOwnState :
    (∃ t, exec (.amxInit 0) ready16 = .next t) ∧ (∃ t, exec .srClear ready16 = .next t) ∧
      (∃ t, exec .ledCont ready16 = .next t) ∧ ∃ t, exec (.mapL2b 7) powerOn16 = .next t :=
  ⟨⟨_, rfl⟩, ⟨_, rfl⟩, ⟨_, rfl⟩, _, rfl⟩
theorem witness_InitForgetsEarlierState :
    powerOn16.build = ready16.build ∧ backendOf powerOn16.build = .shift16 ∧
      (∃ t, exec (.srInit 2 3 4) powerOn16 = .next t) ∧ (∃ t, exec (.srInit 2 3 4) ready16 = .next t) ∧
      (∃ t, exec .ledInit powerOn16 = .next t) ∧ (∃ t, exec .ledInit ready16 = .next t) ∧
      (∃ t, exec (.amxInit 0) powerOn16 = .next t) ∧ ∃ t, exec (.amxInit 0) ready16 = .next t :=
  ⟨rfl, rfl, ⟨_, rfl⟩, ⟨_, rfl⟩, ⟨_, rfl⟩, ⟨_, rfl⟩, ⟨_, rfl⟩, _, rfl⟩
theorem witness_InitForgetsEarlierState_gpio8 :
    ready8.build = (withDuty 7 ready8).build ∧ backendOf ready8.build = .gpio8 ∧
      (∃ t, exec .ledInit ready8 = .next t) ∧ ∃ t, exec .ledInit (withDuty 7 ready8) = .next t :=
  ⟨rfl, rfl, ⟨_, rfl⟩, _, rfl⟩
theorem witness_QuietCommandsAreIdempotent :
    quietIdempotent (.ledSetall 499) = true ∧ ∃ t, exec (.ledSetall 499) ready16 = .next t := ⟨rfl, _, rfl⟩
theorem witness_TransmittersAreIdempotentButForTrace :
    ready16.Inv ∧ (∃ t, exec .srUpdate ready16 = .next t) ∧ (∃ t, exec .srClear ready16 = .next t) ∧
      (∃ t, exec (.srSetall 0xABCD) ready16 = .next t) ∧ ∃ t, exec (.srInit 2 3 4) ready16 = .next t :=
  ⟨ready16_inv, ⟨_, rfl⟩, ⟨_, rfl⟩, ⟨_, rfl⟩, _, rfl⟩
theorem witness_StepsNeverUndoFlagsBuildOrTrace :
    let s := { withWords [0x31000000] ready16 with runRefused := true }
    (∃ t, step s = .next t) ∧ (∀ u, ghostFlag s u = true) ∧ s.runRefused = true :=
  ⟨⟨_, rfl⟩, fun u => by cases u <;> rfl, rfl⟩
theorem witness_StepKeepsInvariant :
    let s := withWords [0x31000000] ready16
    s.Inv ∧ ∃ t, step s = .next t := by
  refine And.intro ?_ ⟨_, rfl⟩
  refine ⟨?_, ?_, ?_, ?_, ?_, ?_, ?_, ?_, ?_, ?_, ?_⟩ <;> decide

end Sys2Proof.Tests
end

section
/-! PROOFS. The step (R5) through the command port (R52, log 4): one equation per state of the port, and one for a legal
word. The statements of the scope family follow from these. -/

namespace Sys2Proof.Machine

/-- With no word issued there is none to take. -/
theorem takeWord_of_cmds_nil {s : State} (hcmds : s.cmds = []) : takeWord s = none := by
  simp [takeWord, hcmds]

/-- The block takes the first word issued and keeps no copy of it (R52). -/
theorem takeWord_of_cmds_cons {s : State} {w : CmdWord} {rest : List CmdWord} (hcmds : s.cmds = w :: rest) :
    takeWord s = some (w, { s with cmds := rest }) := by
  simp [takeWord, hcmds]

theorem execWord_of_decode_ok {w : CmdWord} {i : Instr} (hdec : decode w = .ok i) (s : State) :
    execWord w s = exec i s := by
  simp [execWord, hdec]

theorem step_of_cmds_nil {s : State} (hcmds : s.cmds = []) : step s = .next s := by
  simp [step, takeWord_of_cmds_nil hcmds]

/-- A step is the effect of the next word, legal or not, in the state without it. -/
theorem step_of_cmds_cons {s : State} {w : CmdWord} {rest : List CmdWord} (hcmds : s.cmds = w :: rest) :
    step s = execWord w { s with cmds := rest } := by
  simp [step, takeWord_of_cmds_cons hcmds]

/-- Settles O5: the step is the effect of the word taken, which for a legal word is its command's. -/
theorem stepRunsDecodedCommand : Obligations.StepRunsDecodedCommand := by
  intro s w rest i hcmds hdec
  calc step s
    _ = execWord w { s with cmds := rest } := step_of_cmds_cons hcmds
    _ = exec i { s with cmds := rest } := execWord_of_decode_ok hdec _

/-- Settles O7: with no word to take, the step has nothing to run. -/
theorem idleStepChangesNothing : Obligations.IdleStepChangesNothing :=
  fun _ hcmds => step_of_cmds_nil hcmds

end Sys2Proof.Machine
end

section
/-! PROOFS. What a command can do to the state, said once for all 24 (10_state.md): `Effect` lists the kinds of change
by the unit that makes them, `exec_effect` places every command in it. Ownership (R30), what no step takes back (R15, R20,
R29, R31, R9) and the invariant (R12, R13, R18, R19, R25, R27, R91) are then each read off kind by kind. -/

namespace Sys2Proof.Machine

/-! ### The kinds of effect -/

/-- A next state of a command of a unit (`none` for MAP.L2B), by kind of change. Of the checks passed (R175) a kind keeps
those the invariant rests on. -/
inductive Effect (s : State) : Option Unit3 → State → Prop
  /-- An ignored call, a query, or LED.INIT with `DISABLED`: a response and nothing else. -/
  | answer (u : Option Unit3) (v : Half) : Effect s u (respond v s)
  /-- SR.INIT (R83). -/
  | srInit {a b c : Pin} {t : State} (h : execSrInit a b c s = .next t) : Effect s (some .srd) t
  /-- SR.SETBIT (R84). -/
  | image (v : Half) : Effect s (some .srd) (respond 0 (setImage v s))
  /-- SR.UPDATE, SR.CLEAR and SR.SETALL (R87 to R89). -/
  | send (v : Half) (h : s.srd.inited = true) : Effect s (some .srd) (respond 0 (transmit (setImage v s)))
  /-- LED.INIT with `SHIFT16` (R111). -/
  | ledInitShift16 (h : backendOf s.build = .shift16) : Effect s (some .led) (respond 0 (ledInitSteps s))
  /-- LED.INIT with `GPIO8` (R124). -/
  | ledInitGpio8 (h : backendOf s.build = .gpio8) : Effect s (some .led) (respond 0 (ledInitSteps s))
  /-- LED.UPDATE with `SHIFT16` (R115). -/
  | tickShift16 (v : Half) (h : backendOf s.build = .shift16) (hled : s.led.inited = true) :
      Effect s (some .led) (respond 0 (transmit (setImage v (bumpDuty s))))
  /-- LED.UPDATE with `GPIO8` (R124). -/
  | tickGpio8 : Effect s (some .led) (respond 0 (writePins (bumpDuty s)))
  /-- The LED commands that write the brightness table (R116 to R121). -/
  | brightness (b : Vector Byte 16) : Effect s (some .led) (respond 0 (setBrightness b s))
  /-- LED.CONT: a count in range stays in range (R122). -/
  | cadence (v : Half) (cc : BitVec 10) (h : s.led.cc.toNat < contPeriod → cc.toNat < contPeriod) :
      Effect s (some .led) (respond v (setCadence cc s))
  /-- AMX.INIT (R147). -/
  | amxInit {f : Half} {t : State} (h : execAmxInit f s = .next t) : Effect s (some .amx) t
  /-- AMX.READ and AMX.READALL (R144, R148). -/
  | scan (chs : List (Fin 16)) :
      Effect s (some .amx) (respond 0 (chs.foldl (fun s ch => readChannel ch s) s))
  /-- AMX.CHANGED within a window, AMX.RESET, AMX.RESETALL: no window beyond its old length and a full one
  (R150 to R152). -/
  | window (sup : Vector Half 16)
      (h : ∀ ch : Fin 16, sup[ch].toNat ≤ max s.amx.sup[ch].toNat startupCount.toNat) :
      Effect s (some .amx) (respond 0 (setSuppression sup s))

/-! ### Every command has one of them -/

variable {s t : State} {u : Option Unit3}

theorem effect_of_ifInited {w : Unit3} {flag : Bool} {e : State} (h : ifInited w flag e = .next t)
    (he : flag = true → Effect s u e) : Effect s u t := by
  obtain ⟨hflag, rfl⟩ := (ifInited_next ..).1 h
  exact he hflag

theorem effect_of_indexedCommand {w : Unit3} {flag : Bool} {a : Byte} {f : Fin 16 → State}
    (h : indexedCommand w flag a s f = .next t) (hf : ∀ i, flag = true → Effect s u (f i)) : Effect s u t := by
  obtain ⟨_, rfl⟩ | ⟨i, _, hflag, rfl⟩ := (indexedCommand_next ..).1 h
  · exact .answer u 0
  · exact hf i hflag

theorem effect_of_ledIndexedCommand {a : Byte} {f : Fin 16 → State} (h : ledIndexedCommand a s f = .next t)
    (hf : ∀ i, Effect s u (f i)) : Effect s u t := by
  obtain ⟨_, rfl⟩ | ⟨i, _, _, rfl⟩ := (ledIndexedCommand_next ..).1 h
  · exact .answer u 0
  · exact hf i

theorem effect_of_ledCommand {e : State} (h : ledCommand s e = .next t)
    (he : backendOf s.build ≠ .disabled → s.led.inited = true → Effect s u e) : Effect s u t := by
  obtain ⟨_, rfl⟩ | ⟨hbackend, hled, rfl⟩ := (ledCommand_next ..).1 h
  · exact .answer u 0
  · exact he hbackend hled

/-- The three backends of LED.INIT (R111, R123, R124). -/
theorem effect_ledInit (s : State) : Effect s (some .led) (respond 0 (ledInitSteps s)) := by
  rcases hbackend : backendOf s.build with _ | _ | _
  case shift16 => exact .ledInitShift16 hbackend
  case gpio8 => exact .ledInitGpio8 hbackend
  case disabled => rw [ledInitSteps_disabled s hbackend]; exact .answer _ 0

/-- The three backends of a tick (R115, R123, R124). -/
theorem effect_tick (hled : s.led.inited = true) : Effect s (some .led) (respond 0 (tickSteps s)) := by
  rcases hbackend : backendOf s.build with _ | _ | _
  case shift16 =>
    have hframe : tickSteps s = transmit (setImage (writeFrame (bumpDuty s)).srd.img (bumpDuty s)) := by
      rw [← writeFrame_eq]; simp only [tickSteps, hbackend]
    rw [hframe]; exact .tickShift16 _ hbackend hled
  case gpio8 =>
    have hpins : tickSteps s = writePins (bumpDuty s) := by simp only [tickSteps, hbackend]
    rw [hpins]; exact .tickGpio8
  case disabled =>
    have hidle : tickSteps s = s := by simp only [tickSteps, hbackend]
    rw [hidle]; exact .answer _ 0

/-- A count in range other than the last one has a successor in range (R122). -/
theorem cadence_succ_lt {cc : BitVec 10} (hlast : cc.toNat + 1 ≠ contPeriod) (hcc : cc.toNat < contPeriod) :
    (cc + 1).toNat < contPeriod := by
  unfold contPeriod at *
  bv_omega

/-- The two arms of LED.CONT (R122). -/
theorem effect_cadence (s : State) :
    Effect s (some .led)
      (if s.led.cc.toNat + 1 = contPeriod then respond (boolResp true) (setCadence 0 s)
       else respond (boolResp false) (setCadence (s.led.cc + 1) s)) := by
  split
  next => exact .cadence _ _ fun _ => by decide
  next hlast => exact .cadence _ _ (cadence_succ_lt hlast)

/-- One entry of `K_SUP` replaced by a value within the old one and a full window. -/
theorem setEntry_sup_le {sup : Vector Half 16} {ch : Fin 16} {n : Half}
    (hn : n.toNat ≤ max sup[ch].toNat startupCount.toNat) (k : Fin 16) :
    (setEntry sup ch n)[k].toNat ≤ max sup[k].toNat startupCount.toNat := by
  simp only [Fin.getElem_fin, setEntry_getElem]
  split
  next hk => obtain rfl : ch = k := Fin.ext hk; exact hn
  next => exact le_max_left ..

theorem sub_one_toNat_le {n : Half} (hn : n ≠ 0) : (n - 1).toNat ≤ n.toNat := by
  bv_omega

/-- The two arms of AMX.CHANGED (R150). -/
theorem effect_changed (s : State) (ch : Fin 16) :
    Effect s (some .amx)
      (if s.amx.sup[ch] = 0 then respond (boolResp s.amx.chg[ch]) s
       else respond 0 (setSuppression (setEntry s.amx.sup ch (s.amx.sup[ch] - 1)) s)) := by
  split
  next => exact .answer _ _
  next hsup => exact .window _ (setEntry_sup_le (le_max_of_le_left (sub_one_toNat_le hsup)))

/-- Every next state of a command is an effect of the command's unit. -/
theorem exec_effect {i : Instr} (h : exec i s = .next t) : Effect s (unitOf i) t := by
  cases i with
  | srInit a b c => exact .srInit h
  | srSetbit a on => exact effect_of_indexedCommand h fun _ _ => .image _
  | srGetbit a => exact effect_of_indexedCommand h fun _ _ => .answer _ _
  | srGetstate => exact effect_of_ifInited h fun _ => .answer _ _
  | srUpdate => exact effect_of_ifInited h (.send s.srd.img)
  | srClear => exact effect_of_ifInited h (.send 0)
  | srSetall x => exact effect_of_ifInited h (.send x)
  | mapL2b a => obtain ⟨_, rfl⟩ | ⟨_, _, rfl⟩ := (execMapL2b_next ..).1 h <;> exact .answer _ _
  | ledInit => obtain rfl := (execLedInit_next ..).1 h; exact effect_ledInit s
  | ledUpdate => exact effect_of_ledCommand h fun _ => effect_tick
  | ledSet a x => exact effect_of_ledIndexedCommand h fun _ => .brightness _
  | ledAdd a x => exact effect_of_ledIndexedCommand h fun _ => .brightness _
  | ledSetall x => exact effect_of_ledCommand h fun _ _ => .brightness _
  | ledSetbin c => exact effect_of_ledCommand h fun _ _ => .brightness _
  | ledOn a => exact effect_of_ledIndexedCommand h fun _ => .brightness _
  | ledClear => exact effect_of_ledCommand h fun _ _ => .brightness _
  | ledCont => exact effect_of_ledCommand h fun _ _ => effect_cadence s
  | amxInit f => exact .amxInit h
  | amxRead a => exact effect_of_indexedCommand h fun ch _ => .scan [ch]
  | amxReadall => exact effect_of_ifInited h fun _ => .scan (List.finRange 16)
  | amxValue a => exact effect_of_indexedCommand h fun _ _ => .answer _ _
  | amxChanged a => exact effect_of_indexedCommand h fun ch _ => effect_changed s ch
  | amxReset a =>
    exact effect_of_indexedCommand h fun _ _ => .window _ (setEntry_sup_le (le_max_right ..))
  | amxResetall => exact effect_of_ifInited h fun _ => .window _ fun ch => by simp

/-- A step is idle, an effect, or an illegal word, the latter two in the state without the word taken (R5, R65). -/
theorem step_cases (h : step s = .next t) :
    s = t ∨ ∃ rest, (∃ u, Effect { s with cmds := rest } u t) ∨ illegalWord { s with cmds := rest } = t := by
  obtain ⟨_, rfl⟩ | ⟨_, rest, _, ⟨_, _, hexec⟩ | ⟨_, _, rfl⟩⟩ := (step_next s t).1 h
  · exact .inl rfl
  · exact .inr ⟨rest, .inl ⟨_, exec_effect hexec⟩⟩
  · exact .inr ⟨rest, .inr rfl⟩

/-! ### Ownership (R30) -/

@[simp] theorem transmit_led (s : State) : (transmit s).led = s.led := by rw [transmit_frame]
@[simp] theorem transmit_amx (s : State) : (transmit s).amx = s.amx := by rw [transmit_frame]
@[simp] theorem transmit_adcIn (s : State) : (transmit s).adcIn = s.adcIn := by rw [transmit_frame]
@[simp] theorem transmit_adcDraws (s : State) : (transmit s).adcDraws = s.adcDraws := by rw [transmit_frame]

@[simp] theorem readChannel_srd (ch : Fin 16) (s : State) : (readChannel ch s).srd = s.srd := by rw [readChannel_eq]
@[simp] theorem readChannel_chain (ch : Fin 16) (s : State) : (readChannel ch s).chain = s.chain := by
  rw [readChannel_eq]
@[simp] theorem readChannel_led (ch : Fin 16) (s : State) : (readChannel ch s).led = s.led := by rw [readChannel_eq]

/-- A scan of channels changes no state of the SRD, its chain, or the LED engine (R144). -/
theorem scan_frame (chs : List (Fin 16)) (s : State) :
    (chs.foldl (fun s ch => readChannel ch s) s).srd = s.srd ∧
      (chs.foldl (fun s ch => readChannel ch s) s).chain = s.chain ∧
      (chs.foldl (fun s ch => readChannel ch s) s).led = s.led := by
  induction chs generalizing s with
  | nil => exact ⟨rfl, rfl, rfl⟩
  | cons ch chs ih => simpa using ih (readChannel ch s)

theorem Effect.amx_owns (h : Effect s (some .amx) t) : t.srd = s.srd ∧ t.chain = s.chain ∧ t.led = s.led := by
  cases h with
  | answer => exact ⟨rfl, rfl, rfl⟩
  | amxInit h => obtain rfl := (execAmxInit_next ..).1 h; exact ⟨rfl, rfl, rfl⟩
  | scan chs => simpa using scan_frame chs s
  | window => exact ⟨rfl, rfl, rfl⟩

theorem Effect.amx_kept (h : Effect s u t) (hu : u ≠ some .amx) :
    t.amx = s.amx ∧ t.adcIn = s.adcIn ∧ t.adcDraws = s.adcDraws := by
  cases h with
  | answer => exact ⟨rfl, rfl, rfl⟩
  | srInit h => obtain ⟨_, rfl⟩ := (execSrInit_next ..).1 h; exact ⟨rfl, rfl, rfl⟩
  | image => exact ⟨rfl, rfl, rfl⟩
  | send => simp
  | ledInitShift16 h => rw [ledInitSteps_shift16 s h]; exact ⟨rfl, rfl, rfl⟩
  | ledInitGpio8 h => rw [ledInitSteps_gpio8 s h]; exact ⟨rfl, rfl, rfl⟩
  | tickShift16 => simp [bumpDuty]
  | tickGpio8 => rw [writePins_eq]; exact ⟨rfl, rfl, rfl⟩
  | brightness => exact ⟨rfl, rfl, rfl⟩
  | cadence => exact ⟨rfl, rfl, rfl⟩
  | amxInit => exact absurd rfl hu
  | scan => exact absurd rfl hu
  | window => exact absurd rfl hu

theorem Effect.srd_keeps_led (h : Effect s (some .srd) t) : t.led = s.led := by
  cases h with
  | answer => rfl
  | srInit h => obtain ⟨_, rfl⟩ := (execSrInit_next ..).1 h; rfl
  | image => rfl
  | send => simp

theorem Effect.map_responds (h : Effect s none t) : t = { s with resp := t.resp } := by
  cases h with
  | answer => rfl

/-- Settles O44: each clause is what the kinds of effect of the command's unit leave alone. -/
theorem unitsKeepToTheirOwnState : Obligations.UnitsKeepToTheirOwnState := by
  intro i s t h
  have heffect := exec_effect h
  refine ⟨fun hu => ?_, heffect.amx_kept, fun hu => ?_, fun hu => ?_⟩
  · rw [hu] at heffect; exact heffect.amx_owns
  · rw [hu] at heffect; exact heffect.srd_keeps_led
  · rw [hu] at heffect; exact heffect.map_responds

/-! ### What no step takes back (R15, R20, R29, R31, R9) -/

/-- From `s` to `t` no ghost flag is cleared, the build and the mark of the run stay, and events are only added. -/
structure NothingUndone (s t : State) : Prop where
  srd_flag : s.srd.inited = true → t.srd.inited = true
  led_flag : s.led.inited = true → t.led.inited = true
  amx_flag : s.amx.inited = true → t.amx.inited = true
  build : t.build = s.build
  mark : s.runRefused = true → t.runRefused = true
  trace : s.trace <+: t.trace

theorem NothingUndone.refl (s : State) : NothingUndone s s :=
  ⟨id, id, id, rfl, id, List.prefix_rfl⟩

theorem NothingUndone.trans {r : State} (hrs : NothingUndone r s) (hst : NothingUndone s t) : NothingUndone r t where
  srd_flag := hst.srd_flag ∘ hrs.srd_flag
  led_flag := hst.led_flag ∘ hrs.led_flag
  amx_flag := hst.amx_flag ∘ hrs.amx_flag
  build := hst.build.trans hrs.build
  mark := hst.mark ∘ hrs.mark
  trace := hrs.trace.trans hst.trace

theorem NothingUndone.respond (h : NothingUndone s t) (v : Half) : NothingUndone s (respond v t) := { h with }

theorem nothingUndone_setImage (v : Half) (s : State) : NothingUndone s (setImage v s) := { NothingUndone.refl s with }

theorem nothingUndone_bumpDuty (s : State) : NothingUndone s (bumpDuty s) := { NothingUndone.refl s with }

theorem nothingUndone_transmit (s : State) : NothingUndone s (transmit s) := by
  rw [transmit_frame]
  exact ⟨id, id, id, rfl, id, List.prefix_append ..⟩

theorem nothingUndone_readChannel (ch : Fin 16) (s : State) : NothingUndone s (readChannel ch s) := by
  rw [readChannel_eq]
  exact ⟨id, id, id, rfl, id, List.prefix_append ..⟩

theorem nothingUndone_scan (chs : List (Fin 16)) (s : State) :
    NothingUndone s (chs.foldl (fun s ch => readChannel ch s) s) := by
  induction chs generalizing s with
  | nil => exact .refl s
  | cons ch chs ih => rw [List.foldl_cons]; exact (nothingUndone_readChannel ch s).trans (ih (readChannel ch s))

theorem Effect.nothingUndone (h : Effect s u t) : NothingUndone s t := by
  cases h with
  | answer _ v => exact (NothingUndone.refl s).respond v
  | srInit h =>
    obtain ⟨_, rfl⟩ := (execSrInit_next ..).1 h
    exact ⟨fun _ => rfl, id, id, rfl, id, List.prefix_append ..⟩
  | image v => exact (nothingUndone_setImage v s).respond 0
  | send v => exact ((nothingUndone_setImage v s).trans (nothingUndone_transmit _)).respond 0
  | ledInitShift16 h =>
    rw [ledInitSteps_shift16 s h]
    exact ⟨fun _ => rfl, fun _ => rfl, id, rfl, id, List.prefix_append ..⟩
  | ledInitGpio8 h =>
    rw [ledInitSteps_gpio8 s h]
    exact ⟨id, fun _ => rfl, id, rfl, id, List.prefix_append ..⟩
  | tickShift16 v =>
    have himage := (nothingUndone_bumpDuty s).trans (nothingUndone_setImage v _)
    exact (himage.trans (nothingUndone_transmit _)).respond 0
  | tickGpio8 =>
    rw [writePins_eq]
    exact ⟨id, id, id, rfl, id, List.prefix_append ..⟩
  | brightness => exact { NothingUndone.refl s with }
  | cadence => exact { NothingUndone.refl s with }
  | amxInit h =>
    obtain rfl := (execAmxInit_next ..).1 h
    exact ⟨id, id, fun _ => rfl, rfl, id, List.prefix_append ..⟩
  | scan chs => exact (nothingUndone_scan chs s).respond 0
  | window => exact { NothingUndone.refl s with }

theorem nothingUndone_step (h : step s = .next t) : NothingUndone s t := by
  obtain rfl | ⟨_, ⟨_, heffect⟩ | rfl⟩ := step_cases h
  · exact .refl s
  · exact { heffect.nothingUndone with }
  · exact { NothingUndone.refl s with mark := fun _ => rfl }

/-- Settles O48: an effect only sets flags and appends events, and an illegal word only sets the mark. -/
theorem stepsNeverUndoFlagsBuildOrTrace : Obligations.StepsNeverUndoFlagsBuildOrTrace := by
  intro s t h
  obtain ⟨hsrd, hled, hamx, hbuild, hmark, htrace⟩ := nothingUndone_step h
  refine ⟨fun u => ?_, hbuild, hmark, htrace⟩
  cases u with
  | srd => exact hsrd
  | led => exact hled
  | amx => exact hamx

/-! ### The invariant (R12, R13, R18, R19, R25, R27, R91)

Each operation leaves most fields of the state alone, and a clause about such a field carries over as it stands; only the
clauses about written fields are given anew. -/

/-- A transmit of an initialised driver ends with both stages at the image and the clock lines low (R82, R91): the low
clock lines at its start are the invariant's. -/
theorem State.Inv.transmit (hinv : s.Inv) (hsrd : s.srd.inited = true) : (transmit s).Inv := by
  obtain ⟨hsrclk, hrclk⟩ := hinv.clocks_low hsrd
  rw [transmit_eq s hsrclk hrclk]
  exact { hinv with chain_latched := fun _ => rfl }

theorem State.Inv.respond (hinv : s.Inv) (v : Half) : (respond v s).Inv := { hinv with }

theorem State.Inv.setImage (hinv : s.Inv) (v : Half) : (setImage v s).Inv := { hinv with }

theorem State.Inv.bumpDuty (hinv : s.Inv) : (bumpDuty s).Inv := { hinv with }

theorem State.Inv.readChannel (hinv : s.Inv) (ch : Fin 16) : (Machine.readChannel ch s).Inv := by
  rw [readChannel_eq]
  exact { hinv with }

theorem State.Inv.scan (chs : List (Fin 16)) (hinv : s.Inv) :
    (chs.foldl (fun s ch => Machine.readChannel ch s) s).Inv := by
  induction chs generalizing s with
  | nil => exact hinv
  | cons ch chs ih => rw [List.foldl_cons]; exact ih (hinv.readChannel ch)

/-- LED.INIT with `SHIFT16` leaves the driver as SR.INIT does, on the build's pins, and the engine zeroed (R111). -/
theorem State.Inv.ledInitShift16 (hinv : s.Inv) (h : backendOf s.build = .shift16) : (ledInitSteps s).Inv := by
  rw [ledInitSteps_shift16 s h]
  exact
    { hinv with
      clocks_low := fun _ => ⟨rfl, rfl⟩
      srd_out := fun _ => ⟨rfl, rfl, rfl⟩
      pins_distinct := fun _ => by
        simp [pinsDistinct, s.build.srPins.ser_ne_clk, s.build.srPins.ser_ne_latch, s.build.srPins.clk_ne_latch]
      chain_latched := fun _ => rfl
      srd_unconfigured := nofun
      led_enabled := fun _ => by simp [h]
      led_srd := fun _ _ => rfl
      cadence_range := fun _ => (by decide : 0 < contPeriod)
      led_out := fun _ hgpio => by simp [h] at hgpio }

/-- LED.INIT with `GPIO8` configures the eight lines and zeroes the engine (R124). -/
theorem State.Inv.ledInitGpio8 (hinv : s.Inv) (h : backendOf s.build = .gpio8) : (ledInitSteps s).Inv := by
  rw [ledInitSteps_gpio8 s h]
  exact
    { hinv with
      led_enabled := fun _ => by simp [h]
      led_srd := fun _ hshift => by simp [h] at hshift
      cadence_range := fun _ => (by decide : 0 < contPeriod)
      led_out := fun _ _ i => by simp }

theorem State.Inv.srInit {a b c : Pin} (hinv : s.Inv) (h : execSrInit a b c s = .next t) : t.Inv := by
  obtain ⟨hpins, rfl⟩ := (execSrInit_next ..).1 h
  exact
    { hinv with
      clocks_low := fun _ => ⟨rfl, rfl⟩
      srd_out := fun _ => ⟨rfl, rfl, rfl⟩
      pins_distinct := fun _ => hpins
      chain_latched := fun _ => rfl
      srd_unconfigured := nofun
      led_srd := fun _ _ => rfl }

theorem State.Inv.amxInit {f : Half} (hinv : s.Inv) (h : execAmxInit f s = .next t) : t.Inv := by
  obtain rfl := (execAmxInit_next ..).1 h
  exact
    { hinv with
      suppression_range := fun _ ch => by simp
      amx_out := fun _ => ⟨fun k => by simp, rfl⟩ }

theorem Effect.inv (h : Effect s u t) (hinv : s.Inv) : t.Inv := by
  cases h with
  | answer _ v => exact hinv.respond v
  | srInit h => exact hinv.srInit h
  | image v => exact (hinv.setImage v).respond 0
  | send v hsrd => exact ((hinv.setImage v).transmit hsrd).respond 0
  | ledInitShift16 h => exact (hinv.ledInitShift16 h).respond 0
  | ledInitGpio8 h => exact (hinv.ledInitGpio8 h).respond 0
  | tickShift16 v h hled => exact ((hinv.bumpDuty.setImage v).transmit (hinv.led_srd hled h)).respond 0
  | tickGpio8 => rw [writePins_eq]; exact { hinv with }
  | brightness => exact { hinv with }
  | cadence v cc h => exact { hinv with cadence_range := fun hled => h (hinv.cadence_range hled) }
  | amxInit h => exact hinv.amxInit h
  | scan chs => exact (hinv.scan chs).respond 0
  | window sup h =>
    exact
      { hinv with
        suppression_range := fun hamx ch => (h ch).trans (max_le (hinv.suppression_range hamx ch) le_rfl) }

/-- Settles O49: every kind of effect keeps the invariant; the idle step and the illegal word write no field it reads. -/
theorem stepKeepsInvariant : Obligations.StepKeepsInvariant := by
  intro s t hinv h
  obtain rfl | ⟨_, ⟨_, heffect⟩ | rfl⟩ := step_cases h
  · exact hinv
  · exact heffect.inv { hinv with }
  · exact { hinv with }

end Sys2Proof.Machine
end

section
/-! PROOFS. Repeated and out-of-range commands (20_memory.md R46, R48). An index out of its space stops a command at the
range check. A command is idempotent when what it writes does not depend on what it overwrites: `Overwrites` says this of
an update of a state table, and holds of all of them because each is a series of entry writes. -/

namespace Sys2Proof.Machine

/-! ### An index out of its space (R46, R175) -/

theorem indexedCommand_of_ge {a : Byte} (h : 16 ≤ a.toNat) (u : Unit3) (flag : Bool) (s : State)
    (f : Fin 16 → State) : indexedCommand u flag a s f = .next (ignoreCall s) := by
  rw [indexedCommand, index16_of_ge a h]

theorem ledIndexedCommand_of_ge {a : Byte} {s : State} (h : nLed (backendOf s.build) ≤ a.toNat)
    (f : Fin 16 → State) : ledIndexedCommand a s f = .next (ignoreCall s) := by
  rw [ledIndexedCommand, ledIndex_of_ge _ a h]

theorem execMapL2b_of_ge {a : Byte} (h : 16 ≤ a.toNat) (s : State) : execMapL2b a s = .next (ignoreCall s) :=
  (execMapL2b_next ..).2 (.inl ⟨index16_of_ge a h, rfl⟩)

/-- Settles O8: each of the ten commands checks the range first, and what fails the check is an ignored call. -/
theorem outOfRangeIndexIsIgnored : Obligations.OutOfRangeIndexIsIgnored := by
  intro s a on x
  refine ⟨fun h => ?_, fun h => ?_⟩
  · have hcall := indexedCommand_of_ge h
    exact ⟨hcall .., hcall .., execMapL2b_of_ge h s, hcall .., hcall .., hcall .., hcall ..⟩
  · have hcall := ledIndexedCommand_of_ge h
    exact ⟨hcall _, hcall _, hcall _⟩

/-! ### Updates that overwrite -/

/-- Every entry of the table is either given a value that does not depend on the table, or kept. -/
def Overwrites {α : Type} {n : Nat} (g : Vector α n → Vector α n) : Prop :=
  ∀ (j : Nat) (hj : j < n), (∃ v, ∀ b, (g b)[j] = v) ∨ ∀ b, (g b)[j] = b[j]

section
variable {α : Type} {n : Nat} {g h : Vector α n → Vector α n}

/-- An update that overwrites has nothing left to do the second time. -/
theorem Overwrites.twice (hg : Overwrites g) (b : Vector α n) : g (g b) = g b := by
  apply Vector.ext
  intro j hj
  obtain ⟨v, hv⟩ | hkept := hg j hj
  · rw [hv, hv]
  · exact hkept (g b)

theorem overwrites_id : Overwrites (id : Vector α n → Vector α n) := fun _ _ => .inr fun _ => rfl

/-- The later update decides an entry it writes; an entry it keeps is as the earlier one left it. -/
theorem Overwrites.comp (hg : Overwrites g) (hh : Overwrites h) : Overwrites fun b => g (h b) := by
  intro j hj
  obtain ⟨v, hv⟩ | hkept := hg j hj
  · exact .inl ⟨v, fun b => hv (h b)⟩
  · simpa only [hkept] using hh j hj

theorem overwrites_setEntry (i : Fin n) (v : α) : Overwrites fun b => setEntry b i v := by
  intro j hj
  by_cases hij : i.val = j
  · exact .inl ⟨v, fun b => by rw [setEntry_getElem, if_pos hij]⟩
  · exact .inr fun b => by rw [setEntry_getElem, if_neg hij]

theorem overwrites_foldl {ι : Type} {g : ι → Vector α n → Vector α n} (hg : ∀ i, Overwrites (g i)) (is : List ι) :
    Overwrites fun b => is.foldl (fun b i => g i b) b := by
  induction is with
  | nil => exact overwrites_id
  | cons i is ih => exact ih.comp (hg i)

end

theorem overwrites_darken (is : List (Fin 16)) : Overwrites (darken is) :=
  overwrites_foldl (fun i => overwrites_setEntry i 0) is

theorem overwrites_showByte (c : Byte) : Overwrites (showByte c) :=
  overwrites_foldl (fun _ => overwrites_setEntry _ _) _

theorem overwrites_spread (is : List (Fin 16)) (budget : Nat) : Overwrites (spread is budget) := by
  induction is generalizing budget with
  | nil => exact overwrites_id
  | cons i is ih => exact (ih _).comp (overwrites_setEntry i _)

theorem setBit_twice (v : Half) (p : Fin 16) (on : Bool) : setBit (setBit v p on) p on = setBit v p on := by
  apply BitVec.eq_of_getLsbD_eq
  intro q _
  by_cases hq : q = p.val
  · simp only [setBit_getLsbD, if_pos hq]
  · simp only [setBit_getLsbD, if_neg hq]

/-! ### Idempotent commands (R48) -/

/-- Issued again in the state it has left, the command leaves that state. -/
def IdempotentCommand (c : State → Host.Outcome State Fault Refusal) : Prop :=
  ∀ ⦃s t : State⦄, c s = .next t → c t = .next t

theorem idempotent_ifInited {u : Unit3} {flag : State → Bool} {f : State → State}
    (hflag : ∀ s, flag (f s) = flag s) (hf : ∀ s, f (f s) = f s) :
    IdempotentCommand fun s => ifInited u (flag s) (f s) := by
  intro s t h
  obtain ⟨hs, rfl⟩ := (ifInited_next ..).1 h
  exact (ifInited_next ..).2 ⟨(hflag s).trans hs, hf s⟩

theorem idempotent_indexedCommand {u : Unit3} {a : Byte} {flag : State → Bool} {f : State → Fin 16 → State}
    (hflag : ∀ s i, flag (f s i) = flag s) (hf : ∀ s i, f (f s i) i = f s i) :
    IdempotentCommand fun s => indexedCommand u (flag s) a s (f s) := by
  intro s t h
  obtain ⟨ha, rfl⟩ | ⟨i, ha, hs, rfl⟩ := (indexedCommand_next ..).1 h
  · exact (indexedCommand_next ..).2 (.inl ⟨ha, rfl⟩)
  · exact (indexedCommand_next ..).2 (.inr ⟨i, ha, (hflag s i).trans hs, hf s i⟩)

/-- The answer is read off the table of the build, which no command writes (R31, R103). -/
theorem idempotent_mapL2b (a : Byte) : IdempotentCommand (execMapL2b a) := by
  intro s t h
  obtain ⟨ha, rfl⟩ | ⟨i, ha, rfl⟩ := (execMapL2b_next ..).1 h
  · exact (execMapL2b_next ..).2 (.inl ⟨ha, rfl⟩)
  · exact (execMapL2b_next ..).2 (.inr ⟨i, ha, rfl⟩)

/-- The effect of a LED command that writes the brightness table. -/
def writeBrightness (g : Backend → Vector Byte 16 → Vector Byte 16) (s : State) : State :=
  respond 0 (setBrightness (g (backendOf s.build) s.led.b) s)

theorem writeBrightness_twice {g : Backend → Vector Byte 16 → Vector Byte 16} (hg : ∀ be, Overwrites (g be))
    (s : State) : writeBrightness g (writeBrightness g s) = writeBrightness g s :=
  congrArg (fun b => respond 0 (setBrightness b s)) ((hg (backendOf s.build)).twice s.led.b)

theorem idempotent_ledIndexedCommand {a : Byte} {g : Fin 16 → Backend → Vector Byte 16 → Vector Byte 16}
    (hg : ∀ i be, Overwrites (g i be)) :
    IdempotentCommand fun s => ledIndexedCommand a s fun i => writeBrightness (g i) s := by
  intro s t h
  obtain ⟨ha, rfl⟩ | ⟨i, ha, hled, rfl⟩ := (ledIndexedCommand_next ..).1 h
  · exact (ledIndexedCommand_next ..).2 (.inl ⟨ha, rfl⟩)
  · exact (ledIndexedCommand_next ..).2 (.inr ⟨i, ha, hled, writeBrightness_twice (hg i) s⟩)

theorem idempotent_ledCommand {g : Backend → Vector Byte 16 → Vector Byte 16} (hg : ∀ be, Overwrites (g be)) :
    IdempotentCommand fun s => ledCommand s (writeBrightness g s) := by
  intro s t h
  obtain ⟨hbackend, rfl⟩ | ⟨hbackend, hled, rfl⟩ := (ledCommand_next ..).1 h
  · exact (ledCommand_next ..).2 (.inl ⟨hbackend, rfl⟩)
  · exact (ledCommand_next ..).2 (.inr ⟨hbackend, hled, writeBrightness_twice hg s⟩)

/-- LED.SET stores one entry (R116). -/
theorem idempotent_ledSet (a : Byte) (x : Half) : IdempotentCommand (execLedSet a x) :=
  idempotent_ledIndexedCommand (g := fun i _ b => setEntry b i (scale x)) fun i _ => overwrites_setEntry i _

/-- LED.ON darkens every LED, then stores one entry (R120). -/
theorem idempotent_ledOn (a : Byte) : IdempotentCommand (execLedOn a) :=
  idempotent_ledIndexedCommand (g := fun i be b => setEntry (darken (ledIndices be) b) i (BitVec.ofNat 8 bMax))
    fun i be => (overwrites_setEntry i _).comp (overwrites_darken (ledIndices be))

/-- LED.SETALL spreads a budget the operand alone fixes (R118). -/
theorem idempotent_ledSetall (x : Half) : IdempotentCommand (execLedSetall x) :=
  idempotent_ledCommand (g := fun be b => spread (ledIndices be) (setallBudget be x) b)
    fun be => overwrites_spread (ledIndices be) _

theorem idempotent_ledSetbin (c : Byte) : IdempotentCommand (execLedSetbin c) :=
  idempotent_ledCommand (g := fun _ b => showByte c b) fun _ => overwrites_showByte c

theorem idempotent_ledClear : IdempotentCommand execLedClear :=
  idempotent_ledCommand (g := fun be b => darken (ledIndices be) b) fun be => overwrites_darken (ledIndices be)

theorem idempotent_srSetbit (a : Byte) (on : Bool) : IdempotentCommand (execSrSetbit a on) :=
  idempotent_indexedCommand (flag := fun s => s.srd.inited) (fun _ _ => rfl)
    fun s p => congrArg (fun v => respond 0 (setImage v s)) (setBit_twice s.srd.img p on)

theorem idempotent_amxReset (a : Byte) : IdempotentCommand (execAmxReset a) :=
  idempotent_indexedCommand (flag := fun s => s.amx.inited) (fun _ _ => rfl)
    fun s ch => congrArg (fun sup => respond 0 (setSuppression sup s)) ((overwrites_setEntry ch _).twice s.amx.sup)

/-- A query writes only the response, which no query reads. -/
theorem idempotent_srGetbit (a : Byte) : IdempotentCommand (execSrGetbit a) :=
  idempotent_indexedCommand (flag := fun s => s.srd.inited) (fun _ _ => rfl) fun _ _ => rfl

theorem idempotent_amxValue (a : Byte) : IdempotentCommand (execAmxValue a) :=
  idempotent_indexedCommand (flag := fun s => s.amx.inited) (fun _ _ => rfl) fun _ _ => rfl

theorem idempotent_srGetstate : IdempotentCommand execSrGetstate :=
  idempotent_ifInited (flag := fun s => s.srd.inited) (fun _ => rfl) fun _ => rfl

theorem idempotent_amxResetall : IdempotentCommand execAmxResetall :=
  idempotent_ifInited (flag := fun s => s.amx.inited) (fun _ => rfl) fun _ => rfl

/-- Settles O46: command by command; the checks are passed again, and every write is an overwrite. -/
theorem quietCommandsAreIdempotent : Obligations.QuietCommandsAreIdempotent := by
  intro i s t hquiet h
  cases i with
  | srSetbit a on => exact idempotent_srSetbit a on h
  | srGetbit a => exact idempotent_srGetbit a h
  | srGetstate => exact idempotent_srGetstate h
  | mapL2b a => exact idempotent_mapL2b a h
  | ledSet a x => exact idempotent_ledSet a x h
  | ledOn a => exact idempotent_ledOn a h
  | ledSetall x => exact idempotent_ledSetall x h
  | ledSetbin c => exact idempotent_ledSetbin c h
  | ledClear => exact idempotent_ledClear h
  | amxValue a => exact idempotent_amxValue a h
  | amxReset a => exact idempotent_amxReset a h
  | amxResetall => exact idempotent_amxResetall h
  | _ => cases hquiet

/-! ### The transmitting SR commands (R48, R83, R87 to R89) -/

@[simp] theorem transmit_img (s : State) : (transmit s).srd.img = s.srd.img := by rw [transmit_frame]
@[simp] theorem transmit_inited (s : State) : (transmit s).srd.inited = s.srd.inited := by rw [transmit_frame]

/-- The effect of SR.UPDATE, SR.CLEAR and SR.SETALL, for the image each of them sends. -/
def sendImage (v : Half) (s : State) : State := respond 0 (transmit (setImage v s))

@[simp] theorem sendImage_img (v : Half) (s : State) : (sendImage v s).srd.img = v := by simp [sendImage]
@[simp] theorem sendImage_inited (v : Half) (s : State) : (sendImage v s).srd.inited = s.srd.inited := by
  simp [sendImage]

theorem sendImage_eq (v : Half) (s : State) (hsrclk : s.srd.lSrclk = false) (hrclk : s.srd.lRclk = false) :
    sendImage v s =
      { s with
        srd := { s.srd with img := v, lSer := v.getLsbD 0 }
        chain := ⟨v, v⟩
        trace := s.trace ++ transmitEvents (srdLabels s) v
        resp := 0 } := by
  rw [sendImage, transmit_eq (setImage v s) hsrclk hrclk]
  rfl

/-- From low clock lines the first transmit already brings line and chain to the image (R82); the second one only adds its
events. -/
theorem sendImage_twice (v : Half) {s : State} (hsrclk : s.srd.lSrclk = false) (hrclk : s.srd.lRclk = false) :
    { sendImage v (sendImage v s) with trace := (sendImage v s).trace } = sendImage v s := by
  have hfirst := sendImage_eq v s hsrclk hrclk
  have hsecond := sendImage_eq v (sendImage v s) (by rw [hfirst]; exact hsrclk) (by rw [hfirst]; exact hrclk)
  rw [hsecond, hfirst]

/-- The commands that send an image: they are idempotent but for the trace when sending it does not change which image
they send. -/
theorem sendCommand_again {image : State → Half} (himage : ∀ s, image (sendImage (image s) s) = image s) {s t : State}
    (hinv : s.Inv) (h : ifInited .srd s.srd.inited (sendImage (image s) s) = .next t) :
    ∃ u, ifInited .srd t.srd.inited (sendImage (image t) t) = .next u ∧ { u with trace := t.trace } = t := by
  obtain ⟨hsrd, rfl⟩ := (ifInited_next ..).1 h
  obtain ⟨hsrclk, hrclk⟩ := hinv.clocks_low hsrd
  rw [himage s]
  exact ⟨_, (ifInited_next ..).2 ⟨(sendImage_inited ..).trans hsrd, rfl⟩, sendImage_twice (image s) hsrclk hrclk⟩

/-- SR.INIT reaches one fixed driver state for its pins from any state (R83). -/
theorem srInit_again {a b c : Pin} {s t : State} (h : execSrInit a b c s = .next t) :
    ∃ u, execSrInit a b c t = .next u ∧ { u with trace := t.trace } = t := by
  obtain ⟨hpins, rfl⟩ := (execSrInit_next ..).1 h
  exact ⟨_, (execSrInit_next ..).2 ⟨hpins, rfl⟩, rfl⟩

/-- Settles O47: the invariant's low clock lines make the second transmit change nothing but the trace. -/
theorem transmittersAreIdempotentButForTrace : Obligations.TransmittersAreIdempotentButForTrace := by
  rintro i s t hinv (rfl | rfl | ⟨x, rfl⟩ | ⟨a, b, c, rfl⟩) h
  · exact sendCommand_again (image := fun s => s.srd.img) (fun s => sendImage_img s.srd.img s) hinv h
  · exact sendCommand_again (image := fun _ => 0) (fun _ => rfl) hinv h
  · exact sendCommand_again (image := fun _ => x) (fun _ => rfl) hinv h
  · exact srInit_again h

end Sys2Proof.Machine
end

section
/-! PROOFS. The command word (30_encoding.md). The decoder reads the opcode and nothing else to find the command (R66):
`decode_ok_iff` says so, with the operands read from their fields by `withOperandsOf`. That decoding inverts encoding
(R60 to R63), that reserved fields are ignored (R65 b) and which words are legal (R62, R65 a) follow from it. -/

namespace Sys2Proof

open Machine

/-! ### What the decoder answers (R62, R63, R65 a) -/

/-- The command of the same opcode whose operands are the fields of the word (R63). -/
def withOperandsOf (w : CmdWord) : Instr → Instr
  | .srInit _ _ _ => .srInit (aField w) (bField w) (cField w)
  | .srSetbit _ _ => .srSetbit (aField w) (onField w)
  | .srGetbit _ => .srGetbit (aField w)
  | .srGetstate => .srGetstate
  | .srUpdate => .srUpdate
  | .srClear => .srClear
  | .srSetall _ => .srSetall (immField w)
  | .mapL2b _ => .mapL2b (aField w)
  | .ledInit => .ledInit
  | .ledUpdate => .ledUpdate
  | .ledSet _ _ => .ledSet (aField w) (immField w)
  | .ledAdd _ _ => .ledAdd (aField w) (immField w)
  | .ledSetall _ => .ledSetall (immField w)
  | .ledSetbin _ => .ledSetbin (cField w)
  | .ledOn _ => .ledOn (aField w)
  | .ledClear => .ledClear
  | .ledCont => .ledCont
  | .amxInit _ => .amxInit (immField w)
  | .amxRead _ => .amxRead (aField w)
  | .amxReadall => .amxReadall
  | .amxValue _ => .amxValue (aField w)
  | .amxChanged _ => .amxChanged (aField w)
  | .amxReset _ => .amxReset (aField w)
  | .amxResetall => .amxResetall

/-- An opcode number of the map (R62): the 24 that R65 a leaves legal. -/
def IsOpcode (op : Nat) : Prop :=
  (0x10 ≤ op ∧ op ≤ 0x16) ∨ op = 0x20 ∨ (0x30 ≤ op ∧ op ≤ 0x38) ∨ (0x40 ≤ op ∧ op ≤ 0x46)

theorem opcodeOf_isOpcode (i : Instr) : IsOpcode (opcodeOf i).toNat := by
  cases i <;> simp [IsOpcode, opcodeOf]

/-- The opcode alone finds the command (R66). -/
theorem decode_of_opField {w : CmdWord} {i : Instr} (hop : opField w = opcodeOf i) :
    decode w = .ok (withOperandsOf w i) := by
  cases i <;> (rw [decode, hop]; rfl)

/-- A command read from a word has the word's opcode and the word's fields. -/
theorem fields_of_decode_ok {w : CmdWord} {i : Instr} (hdec : decode w = .ok i) :
    opField w = opcodeOf i ∧ withOperandsOf w i = i := by
  unfold decode at hdec
  split at hdec <;> cases hdec <;> exact ⟨‹_›, rfl⟩

theorem decode_ok_iff {w : CmdWord} {i : Instr} :
    decode w = .ok i ↔ opField w = opcodeOf i ∧ withOperandsOf w i = i := by
  refine ⟨fields_of_decode_ok, fun ⟨hop, hoperands⟩ => ?_⟩
  rw [decode_of_opField hop, hoperands]

/-- What is no command is named by its opcode, which is none of the map (R65 a). -/
theorem opField_of_decode_error {w : CmdWord} {e : DecodeError} (hdec : decode w = .error e) :
    e = .illegalOpcode (opField w) ∧ ¬ IsOpcode (opField w).toNat := by
  unfold decode at hdec
  split at hdec <;> cases hdec
  refine ⟨rfl, ?_⟩
  simp only [imp_false, IsOpcode] at *
  bv_omega

/-! ### Decoding inverts encoding (R60 to R63) -/

theorem opField_encode (i : Instr) : opField (encode i) = opcodeOf i := by
  cases i <;> simp only [encode, opField_wordOf, opField_wordImm]

theorem withOperandsOf_encode (i : Instr) : withOperandsOf (encode i) i = i := by
  cases i <;> simp only [withOperandsOf, encode, aField_wordOf, bField_wordOf, cField_wordOf, onField_wordOf,
    aField_wordImm, immField_wordImm]

/-- Settles O1: the encoded word carries the command's opcode and its operands. -/
theorem decodeInvertsEncode : Obligations.DecodeInvertsEncode :=
  fun i => decode_ok_iff.2 ⟨opField_encode i, withOperandsOf_encode i⟩

/-! ### Reserved fields (R61, R65 b) -/

/-- A word is its four fields (R60). -/
theorem wordOf_fields (w : CmdWord) : wordOf (opField w) (aField w) (bField w) (cField w) = w := by
  apply BitVec.eq_of_getLsbD_eq; intro k hk
  interval_cases k <;> simp [wordOf, opField, aField, bField, cField]

/-- A word is its opcode, `a` and the immediate (R60). -/
theorem wordImm_fields (w : CmdWord) : wordImm (opField w) (aField w) (immField w) = w := by
  apply BitVec.eq_of_getLsbD_eq; intro k hk
  interval_cases k <;> simp [wordImm, opField, aField, immField]

theorem opField_and (w m : CmdWord) : opField (w &&& m) = opField w &&& opField m := by
  ext; simp [opField]
theorem aField_and (w m : CmdWord) : aField (w &&& m) = aField w &&& aField m := by
  ext; simp [aField]
theorem bField_and (w m : CmdWord) : bField (w &&& m) = bField w &&& bField m := by
  ext; simp [bField]
theorem cField_and (w m : CmdWord) : cField (w &&& m) = cField w &&& cField m := by
  ext; simp [cField]
theorem immField_and (w m : CmdWord) : immField (w &&& m) = immField w &&& immField m := by
  ext; simp [immField]

/-- Masking a word masks each of its fields. -/
theorem and_wordOf (w : CmdWord) (op a b c : Byte) :
    w &&& wordOf op a b c = wordOf (opField w &&& op) (aField w &&& a) (bField w &&& b) (cField w &&& c) := by
  rw [← wordOf_fields (w &&& wordOf op a b c), opField_and, aField_and, bField_and, cField_and, opField_wordOf,
    aField_wordOf, bField_wordOf, cField_wordOf]

theorem and_wordImm (w : CmdWord) (op a : Byte) (x : Half) :
    w &&& wordImm op a x = wordImm (opField w &&& op) (aField w &&& a) (immField w &&& x) := by
  rw [← wordImm_fields (w &&& wordImm op a x), opField_and, aField_and, immField_and, opField_wordImm,
    aField_wordImm, immField_wordImm]

section
variable (w : CmdWord)

/-! The seven formats (R61): the word written from the fields of a word is that word under the format's mask. -/

theorem formatZ_eq_and : wordOf (opField w) 0#8 0#8 0#8 = w &&& 0xFF000000 := by
  rw [show (0xFF000000 : CmdWord) = wordOf (.allOnes 8) 0#8 0#8 0#8 by decide, and_wordOf]
  simp only [BitVec.and_allOnes, BitVec.and_zero]
theorem formatA_eq_and : wordOf (opField w) (aField w) 0#8 0#8 = w &&& 0xFFFF0000 := by
  rw [show (0xFFFF0000 : CmdWord) = wordOf (.allOnes 8) (.allOnes 8) 0#8 0#8 by decide, and_wordOf]
  simp only [BitVec.and_allOnes, BitVec.and_zero]
theorem formatAV_eq_and :
    wordOf (opField w) (aField w) 0#8 ((BitVec.ofBool (onField w)).setWidth 8) = w &&& 0xFFFF0001 := by
  have hon : cField w &&& 1#8 = (BitVec.ofBool (onField w)).setWidth 8 := by
    simp [BitVec.and_one_eq_setWidth_ofBool_getLsbD, cField, onField]
  rw [show (0xFFFF0001 : CmdWord) = wordOf (.allOnes 8) (.allOnes 8) 0#8 1#8 by decide, and_wordOf, hon]
  simp only [BitVec.and_allOnes, BitVec.and_zero]
theorem formatAI_eq_and : wordImm (opField w) (aField w) (immField w) = w &&& 0xFFFFFFFF := by
  rw [wordImm_fields]; exact (BitVec.and_allOnes (x := w)).symm
theorem formatI_eq_and : wordImm (opField w) 0#8 (immField w) = w &&& 0xFF00FFFF := by
  rw [show (0xFF00FFFF : CmdWord) = wordImm (.allOnes 8) 0#8 (.allOnes 16) by decide, and_wordImm]
  simp only [BitVec.and_allOnes, BitVec.and_zero]
theorem formatC_eq_and : wordOf (opField w) 0#8 0#8 (cField w) = w &&& 0xFF0000FF := by
  rw [show (0xFF0000FF : CmdWord) = wordOf (.allOnes 8) 0#8 0#8 (.allOnes 8) by decide, and_wordOf]
  simp only [BitVec.and_allOnes, BitVec.and_zero]
theorem formatP_eq_and : wordOf (opField w) (aField w) (bField w) (cField w) = w &&& 0xFFFFFFFF := by
  rw [wordOf_fields]; exact (BitVec.and_allOnes (x := w)).symm

end

/-- For the operands in a word of a command's opcode the encoder writes the bits of the word that the format uses. -/
theorem encode_withOperandsOf {w : CmdWord} {i : Instr} (hop : opField w = opcodeOf i) :
    encode (withOperandsOf w i) = w &&& usedBits i := by
  cases i <;> simp only [opcodeOf] at hop <;> simp only [withOperandsOf, encode, opcodeOf, usedBits, ← hop]
  case srInit => exact formatP_eq_and w
  case srSetbit => exact formatAV_eq_and w
  case ledSet | ledAdd => exact formatAI_eq_and w
  case srSetall | ledSetall | amxInit => exact formatI_eq_and w
  case ledSetbin => exact formatC_eq_and w
  case srGetbit | mapL2b | ledOn | amxRead | amxValue | amxChanged | amxReset => exact formatA_eq_and w
  case srGetstate | srUpdate | srClear | ledInit | ledUpdate | ledClear | ledCont | amxReadall | amxResetall =>
    exact formatZ_eq_and w

theorem encode_of_decode_ok {w : CmdWord} {i : Instr} (hdec : decode w = .ok i) : encode i = w &&& usedBits i := by
  obtain ⟨hop, hoperands⟩ := fields_of_decode_ok hdec
  rw [← encode_withOperandsOf hop, hoperands]

/-- Settles O2: the masked word is the encoding of the word's command, so both stand for that command. -/
theorem reservedFieldsAreIgnored : Obligations.ReservedFieldsAreIgnored := by
  intro w i hdec
  have henc := encode_of_decode_ok hdec
  refine ⟨henc, fun s => ?_⟩
  calc execWord w s
    _ = exec i s := execWord_of_decode_ok hdec s
    _ = execWord (encode i) s := (execWord_of_decode_ok (decodeInvertsEncode i) s).symm
    _ = execWord (w &&& usedBits i) s := by rw [henc]

/-! ### Legal and illegal words (R62, R65 a) -/

theorem exists_decode_ok_iff (w : CmdWord) : (∃ i, decode w = .ok i) ↔ IsOpcode (opField w).toNat := by
  constructor
  · rintro ⟨i, hdec⟩
    rw [(fields_of_decode_ok hdec).1]
    exact opcodeOf_isOpcode i
  · intro hop
    rcases hdec : decode w with e | i
    · exact absurd hop (opField_of_decode_error hdec).2
    · exact ⟨i, rfl⟩

theorem decode_error_of_illegal {w : CmdWord} (h : ∀ i, decode w ≠ .ok i) :
    decode w = .error (.illegalOpcode (opField w)) := by
  rcases hdec : decode w with e | i
  · rw [(opField_of_decode_error hdec).1]
  · exact absurd hdec (h i)

/-- Settles O3: the top byte of the word is its opcode, and the opcode alone decides. -/
theorem legalOpcodesAreTheMap : Obligations.LegalOpcodesAreTheMap := by
  intro w
  refine ⟨?_, fun hillegal => ?_⟩
  · rw [← opField_toNat]
    exact exists_decode_ok_iff w
  · rw [← opField_toNat, BitVec.ofNat_toNat, BitVec.setWidth_eq]
    exact decode_error_of_illegal (not_exists.1 hillegal)

/-- A word that is no command has the effect of an illegal word (R65 a). -/
theorem execWord_of_decode_error {w : CmdWord} {e : DecodeError} (hdec : decode w = .error e) (s : State) :
    execWord w s = .next (illegalWord s) := by
  simp [execWord, hdec]

/-- Settles O6: the word taken names no command, and an illegal word writes `RESP` and the mark only. -/
theorem illegalWordOnlyClearsResponse : Obligations.IllegalWordOnlyClearsResponse := by
  intro s w rest hcmds hillegal
  rw [step_of_cmds_cons hcmds, execWord_of_decode_error (decode_error_of_illegal hillegal)]
  rfl

/-- Settles O4: the fields of each word, read off. -/
theorem sampleWordsDecode : Obligations.SampleWordsDecode := by
  refine ⟨?_, ?_, ?_, ?_, ?_, ?_, ?_, ?_⟩ <;> decide

end Sys2Proof
end

section
/-! PROOFS. The serial frame (30_encoding.md R68): what a receiver on `SER` and `SRCLK` collects from the events of a
transmit (R80), bit by bit, and that the bits sent add up to the image again. -/

namespace Sys2Proof.Machine

/-- Bits `n - 1` down to 0 of an image, in the order a transmit sends them. -/
def imageBits (img : Half) (n : Nat) : List Bool := (List.range n).reverse.map (img.getLsbD ·)

@[simp] theorem imageBits_zero (img : Half) : imageBits img 0 = [] := rfl
@[simp] theorem imageBits_succ (img : Half) (n : Nat) :
    imageBits img (n + 1) = img.getLsbD n :: imageBits img n := by
  simp [imageBits, List.range_succ]
@[simp] theorem imageBits_length (img : Half) (n : Nat) : (imageBits img n).length = n := by simp [imageBits]

theorem imageBits_getElem? (img : Half) {n k : Nat} (hk : k < n) :
    (imageBits img n)[k]? = some (img.getLsbD (n - 1 - k)) := by
  simp [imageBits, hk]

/-! ### What the receiver collects -/

/-- From a low clock, the events of one bit give the receiver that bit and leave the clock low. -/
theorem receive_bitEvents (p : SrdLabels) (level ser : Bool) (got : List Bool) :
    (bitEvents p level).foldl receive ⟨ser, false, got⟩ = ⟨level, false, got ++ [level]⟩ := by
  simp [bitEvents, receive]

theorem receive_bitsEvents (p : SrdLabels) (img : Half) (n : Nat) (ser : Bool) (got : List Bool) :
    ((bitsEvents p img n).foldl receive ⟨ser, false, got⟩).samples = got ++ imageBits img n := by
  induction n generalizing ser got with
  | zero => simp [bitsEvents]
  | succ n ih => rw [bitsEvents, List.foldl_append, receive_bitEvents, ih]; simp

/-- The latch pulse is not on the receiver's lines. -/
theorem receive_latchEvents (p : SrdLabels) (r : Receiver) : (latchEvents p).foldl receive r = r := by
  simp [latchEvents, receive]

theorem receivedSamples_transmitEvents (p : SrdLabels) (img : Half) :
    receivedSamples (transmitEvents p img) = imageBits img 16 := by
  rw [receivedSamples, transmitEvents, List.foldl_append, receive_latchEvents, receive_bitsEvents, List.nil_append]

/-! ### What the samples add up to -/

/-- The value after the low `n` bits of an image have followed the value `v`. -/
theorem foldl_imageBits (img : Half) (n v : Nat) :
    (imageBits img n).foldl (fun v b => 2 * v + b.toNat) v = v * 2 ^ n + img.toNat % 2 ^ n := by
  induction n generalizing v with
  | zero => simp [Nat.mod_one]
  | succ n ih =>
    rw [imageBits_succ, List.foldl_cons, ih, Nat.mod_pow_succ, ← Nat.toNat_testBit, BitVec.testBit_toNat]
    ring

theorem frameValue_imageBits (img : Half) : frameValue (imageBits img 16) = img.toNat := by
  rw [frameValue, foldl_imageBits, Nat.zero_mul, Nat.zero_add, Nat.mod_eq_of_lt img.isLt]

/-- The events SR.SETALL adds are those of one transmit of its operand (R80, R89). -/
theorem newEvents_sendImage (v : Half) (s : State) (hsrclk : s.srd.lSrclk = false) (hrclk : s.srd.lRclk = false) :
    newEvents s (sendImage v s) = transmitEvents (srdLabels s) v := by
  rw [newEvents, sendImage_eq v s hsrclk hrclk, List.drop_left]

/-- Settles O18: the samples of the frame are the image's bits from the top. -/
theorem serialFrameReconstructsImage : Obligations.SerialFrameReconstructsImage := by
  intro s x hsrd hsrclk hrclk
  have hsamples : receivedSamples (newEvents s (sendImage x s)) = imageBits x 16 := by
    rw [newEvents_sendImage x s hsrclk hrclk, receivedSamples_transmitEvents]
  refine ⟨sendImage x s, (execSrSetall_next ..).2 ⟨hsrd, rfl⟩, ?_⟩
  rw [hsamples]
  exact ⟨imageBits_length x 16, fun k hk => imageBits_getElem? x hk, frameValue_imageBits x⟩

end Sys2Proof.Machine
end

section
/-! PROOFS. The shift-register driver (40_shift_register.md): the pin check and the reach of SR.INIT (R83), the image and its
queries (R84 to R86, R90), and how a transmit moves the image into the chain pulse by pulse (R80 to R82, R87 to R89). -/

namespace Sys2Proof.Machine

/-! ### SR.INIT (R83) -/

theorem pinsDistinct_iff (a b c : Pin) : pinsDistinct a b c = true ↔ a ≠ b ∧ a ≠ c ∧ b ≠ c := by
  simp [pinsDistinct, and_assoc]

theorem execSrInit_of_not_distinct {a b c : Pin} (h : pinsDistinct a b c ≠ true) (s : State) :
    execSrInit a b c s = .refused .equalPins :=
  if_neg h

/-- Settles O12: two equal pin numbers fail the check that stands before every effect. -/
theorem srInitEqualPinsRefused : Obligations.SrInitEqualPinsRefused := by
  intro a b c s hequal
  refine execSrInit_of_not_distinct (fun hpins => ?_) s
  obtain ⟨hab, hac, hbc⟩ := (pinsDistinct_iff a b c).1 hpins
  obtain h | h | h := hequal
  · exact hab h
  · exact hac h
  · exact hbc h

theorem eventCounts_append (es fs : List Event) : eventCounts (es ++ fs) = eventCounts es + eventCounts fs := by
  simp [eventCounts]

theorem eventCounts_bitEvents (p : SrdLabels) (level : Bool) : eventCounts (bitEvents p level) = (0, 3, 2, 0) := rfl

/-- Three writes and two delays for each bit (R80, R213). -/
theorem eventCounts_bitsEvents (p : SrdLabels) (img : Half) (n : Nat) :
    eventCounts (bitsEvents p img n) = (0, 3 * n, 2 * n, 0) := by
  induction n with
  | zero => rfl
  | succ n ih =>
    rw [bitsEvents, eventCounts_append, eventCounts_bitEvents, ih]
    simp only [Prod.mk_add_mk, Nat.mul_succ, Nat.add_comm, Nat.add_zero]

theorem eventCounts_latchEvents (p : SrdLabels) : eventCounts (latchEvents p) = (0, 2, 1, 0) := rfl

theorem eventCounts_transmitEvents (p : SrdLabels) (img : Half) : eventCounts (transmitEvents p img) = (0, 50, 33, 0) := by
  rw [transmitEvents, eventCounts_append, eventCounts_bitsEvents, eventCounts_latchEvents]
  rfl

theorem eventCounts_configureEvents (l : Line) (pin : Pin) : eventCounts (configureEvents l pin) = (1, 1, 0, 0) := rfl

/-- Three lines configured and driven low, and one transmit (R83, R184). -/
theorem eventCounts_srdInitEvents (p : SrdLabels) : eventCounts (srdInitEvents p) = (3, 53, 33, 0) := by
  simp only [srdInitEvents, eventCounts_append, eventCounts_configureEvents, eventCounts_transmitEvents]
  rfl

/-- Settles O11: distinct pins pass the check, and the steps then reach one state whatever the driver held. -/
theorem srInitReachesKnownState : Obligations.SrInitReachesKnownState := by
  intro a b c s hab hac hbc
  have hpins : pinsDistinct a b c = true := (pinsDistinct_iff a b c).2 ⟨hab, hac, hbc⟩
  exact ⟨(execSrInit_next ..).2 ⟨hpins, rfl⟩, eventCounts_srdInitEvents _⟩

/-! ### The image and its queries (R84 to R86) -/

/-- An index in its space, of a unit that is initialised, passes both checks (R175). -/
theorem indexedCommand_of_lt {a : Byte} (ha : a.toNat < 16) {flag : Bool} (hflag : flag = true) (u : Unit3) (s : State)
    (f : Fin 16 → State) : indexedCommand u flag a s f = .next (f ⟨a.toNat, ha⟩) :=
  (indexedCommand_next ..).2 (.inr ⟨_, index16_of_lt a ha, hflag, rfl⟩)

theorem boolResp_eq_ite (b : Bool) : boolResp b = if b then 1 else 0 := by
  cases b <;> rfl

section
variable {s : State} {a : Byte}

theorem execSrSetbit_of_lt (hsrd : s.srd.inited = true) (ha : a.toNat < 16) (on : Bool) :
    execSrSetbit a on s = .next (respond 0 (setImage (setBit s.srd.img ⟨a.toNat, ha⟩ on) s)) :=
  indexedCommand_of_lt ha hsrd ..

theorem execSrGetbit_of_lt (hsrd : s.srd.inited = true) (ha : a.toNat < 16) :
    execSrGetbit a s = .next (respond (if s.srd.img.getLsbD a.toNat then 1 else 0) s) := by
  rw [← boolResp_eq_ite]
  exact indexedCommand_of_lt ha hsrd ..

theorem execSrGetstate_of_inited (hsrd : s.srd.inited = true) : execSrGetstate s = .next (respond s.srd.img s) :=
  (execSrGetstate_next ..).2 ⟨hsrd, rfl⟩

end

/-- Settles O14: both queries answer from the image and write the response only. -/
theorem imageQueriesRespond : Obligations.ImageQueriesRespond :=
  fun _ hsrd => ⟨fun _ ha => execSrGetbit_of_lt hsrd ha, execSrGetstate_of_inited hsrd⟩

/-- Settles O13: the new image is the old one with the one bit set to the operand. -/
theorem setbitWritesOneImageBit : Obligations.SetbitWritesOneImageBit := by
  intro s a on hsrd ha
  exact ⟨_, execSrSetbit_of_lt hsrd ha on, rfl, fun q _ => setBit_getLsbD s.srd.img ⟨a.toNat, ha⟩ on q⟩

/-! ### The round trip (R90) -/

/-- The powers of the set bits below `n` add up to the low `n` bits. -/
theorem sum_powers_of_bits {w : Nat} (v : BitVec w) (n : Nat) :
    ((List.range n).map (fun k => if v.getLsbD k then 2 ^ k else 0)).sum = v.toNat % 2 ^ n := by
  induction n with
  | zero => simp [Nat.mod_one]
  | succ n ih =>
    rw [List.sum_range_succ, ih, Nat.mod_pow_succ, ← Nat.toNat_testBit, BitVec.testBit_toNat]
    cases v.getLsbD n <;> simp

/-- Settles O15: each query after SR.SETBIT reads the image that SR.SETBIT left, bit by bit. -/
theorem setbitGetbitRoundTrip : Obligations.SetbitGetbitRoundTrip := by
  intro s p v hsrd hp
  have hbit : ∀ q, (setBit s.srd.img ⟨p.toNat, hp⟩ v).getLsbD q = if q = p.toNat then v else s.srd.img.getLsbD q :=
    setBit_getLsbD s.srd.img ⟨p.toNat, hp⟩ v
  refine ⟨_, execSrSetbit_of_lt hsrd hp v, ⟨_, execSrGetbit_of_lt hsrd hp, ?_⟩, fun q hq hqp => ?_, ?_⟩
  · simp [hbit]
  · have hne : q.toNat ≠ p.toNat := fun h => hqp (BitVec.eq_of_toNat_eq h)
    exact ⟨_, _, execSrGetbit_of_lt hsrd hq, execSrGetbit_of_lt hsrd hq, by simp [hbit, hne]⟩
  · refine ⟨_, execSrGetstate_of_inited hsrd, ?_⟩
    rw [sum_powers_of_bits, Nat.mod_eq_of_lt (BitVec.isLt _)]
    rfl

/-! ### A transmit, pulse by pulse (R80 to R82) -/

@[simp] theorem firstPulses_zero (s : State) : firstPulses 0 s = s := rfl

theorem firstPulses_succ (k : Nat) (s : State) : firstPulses (k + 1) s = shiftOut (15 - k) (firstPulses k s) := by
  simp [firstPulses, List.range_succ]

/-- The groups of the image bits still to be sent complete a transmit's sixteen. -/
theorem shiftOutBits_firstPulses {k : Nat} (hk : k ≤ 16) (s : State) :
    shiftOutBits (16 - k) (firstPulses k s) = shiftOutBits 16 s := by
  induction k with
  | zero => rfl
  | succ k ih =>
    have hleft : 16 - k = (16 - (k + 1)) + 1 := by omega
    rw [← ih (by omega), hleft, shiftOutBits, firstPulses_succ, Nat.add_sub_add_right 15 1 k]

/-- A transmit is its sixteen pulses and then the latch pulse. -/
theorem transmit_eq_latchPulse (s : State) : transmit s = latchPulse (firstPulses 16 s) :=
  congrArg latchPulse (shiftOutBits_firstPulses le_rfl s).symm

/-- From a low shift clock, the pulses leave it low, and leave the image and the outputs as they were. -/
theorem firstPulses_frame (k : Nat) {s : State} (hsrclk : s.srd.lSrclk = false) :
    (firstPulses k s).srd.lSrclk = false ∧ (firstPulses k s).srd.img = s.srd.img ∧
      (firstPulses k s).chain.q = s.chain.q := by
  induction k with
  | zero => exact ⟨hsrclk, rfl, rfl⟩
  | succ k ih =>
    obtain ⟨hlow, himg, hq⟩ := ih
    rw [firstPulses_succ, shiftOut_eq _ _ hlow]
    exact ⟨rfl, himg, hq⟩

/-- Each pulse shifts in the next image bit from the top (R81). -/
theorem firstPulses_succ_shift (k : Nat) {s : State} (hsrclk : s.srd.lSrclk = false) :
    (firstPulses (k + 1) s).chain.shift = shiftIn (firstPulses k s).chain.shift (s.srd.img.getLsbD (15 - k)) := by
  obtain ⟨hlow, himg, _⟩ := firstPulses_frame k hsrclk
  rw [firstPulses_succ, shiftOut_eq _ _ hlow, himg]

/-- The low `k` bits of the shift stage after `k` pulses are the top `k` bits of the image, bit by bit. -/
theorem firstPulses_shift_getLsbD {k : Nat} (hk : k ≤ 16) {s : State} (hsrclk : s.srd.lSrclk = false) {j : Nat}
    (hj : j < k) : (firstPulses k s).chain.shift.getLsbD j = s.srd.img.getLsbD (16 - k + j) := by
  induction k generalizing j with
  | zero => omega
  | succ k ih =>
    rw [firstPulses_succ_shift k hsrclk, shiftIn_getLsbD _ _ _ (by omega)]
    rcases j with _ | j
    · rw [if_pos rfl, Nat.add_zero, Nat.add_sub_add_right 15 1 k]
    · rw [if_neg (by omega), Nat.add_sub_cancel, ih (by omega) (by omega)]
      congr 1
      omega

/-- The low `k` bits of one value are the top `k` bits of another when they agree bit by bit. -/
theorem low_bits_eq_top_bits {v img : Half} {k : Nat} (hk : k ≤ 16)
    (h : ∀ j, j < k → v.getLsbD j = img.getLsbD (16 - k + j)) : v.toNat % 2 ^ k = img.toNat / 2 ^ (16 - k) := by
  apply Nat.eq_of_testBit_eq
  intro j
  rw [Nat.testBit_mod_two_pow, Nat.testBit_div_two_pow, BitVec.testBit_toNat, BitVec.testBit_toNat, Nat.add_comm j]
  by_cases hj : j < k
  · simp [hj, h j hj]
  · rw [BitVec.getLsbD_of_ge img _ (by omega)]
    simp [hj]

/-- Settles O16: pulse `k` puts image bit `15 - k` below those shifted in before it, and only the latch pulse writes the
outputs. -/
theorem transmitMovesImageToOutputs : Obligations.TransmitMovesImageToOutputs := by
  intro s hsrclk hrclk
  have hpulses : ∀ k, k ≤ 16 → (firstPulses k s).chain.q = s.chain.q ∧
      (firstPulses k s).chain.shift.toNat % 2 ^ k = s.srd.img.toNat / 2 ^ (16 - k) := by
    intro k hk
    obtain ⟨_, _, hq⟩ := firstPulses_frame k hsrclk
    exact ⟨hq, low_bits_eq_top_bits hk fun _ => firstPulses_shift_getLsbD hk hsrclk⟩
  refine ⟨hpulses, transmit_eq_latchPulse s, ?_⟩
  rw [transmit_eq s hsrclk hrclk]
  exact ⟨rfl, rfl, rfl⟩

/-! ### The transmitting commands (R87 to R89) -/

/-- A command that sends an image completes once the driver is initialised (R172). -/
theorem ifInited_sendImage {s : State} (hsrd : s.srd.inited = true) (hsrclk : s.srd.lSrclk = false)
    (hrclk : s.srd.lRclk = false) (v : Half) :
    ifInited .srd s.srd.inited (sendImage v s) =
      .next
        { s with
          srd := { s.srd with img := v, lSer := v.getLsbD 0 }
          chain := ⟨v, v⟩
          trace := s.trace ++ transmitEvents (srdLabels s) v
          resp := 0 } :=
  (ifInited_next ..).2 ⟨hsrd, sendImage_eq v s hsrclk hrclk⟩

/-- Settles O17: the three commands differ only in the image they send. -/
theorem transmittingCommandsDeliverImage : Obligations.TransmittingCommandsDeliverImage := by
  intro s hsrd hsrclk hrclk
  have hsend := ifInited_sendImage hsrd hsrclk hrclk
  exact ⟨hsend s.srd.img, hsend 0, hsend⟩

end Sys2Proof.Machine
end

section
/-! PROOFS. The table `LED_MAP` (41_led_map.md): what MAP.L2B answers from it (R103), the constraints of R101 read off the
table of any build, and that no step changes it (R100). -/

namespace Sys2Proof.Machine

/-! ### The command (R103) -/

theorem execMapL2b_of_lt {a : Byte} (ha : a.toNat < 16) (s : State) :
    execMapL2b a s = .next (respond (bitResp (ledBit s.build ⟨a.toNat, ha⟩)) s) :=
  (execMapL2b_next ..).2 (.inr ⟨_, index16_of_lt a ha, rfl⟩)

/-! ### The table (R101) -/

section
variable (bd : Build)

theorem ledBit_injective : Function.Injective (ledBit bd) := bd.ledMap.injective

/-- R101 (a): an injection of the sixteen indices into the sixteen bits leaves no bit out. -/
theorem ledBit_bijective : Function.Bijective (ledBit bd) :=
  Finite.injective_iff_bijective.1 (ledBit_injective bd)

/-- R101 (b). -/
theorem ledBit_seven : ledBit bd 7 = 0 := bd.ledMap.seven

/-- R101 (c). -/
theorem ledBit_fifteen : ledBit bd 15 = 15 := bd.ledMap.fifteen

/-- R101 (d): the step indices have the bits 0 to 7, and no other index has one of them. -/
theorem ledBit_lt_eight_iff (i : Fin 16) : i.val < 8 ↔ (ledBit bd i).val < 8 := by
  refine ⟨bd.ledMap.steps i, fun hbit => ?_⟩
  by_contra hi
  exact absurd hbit (Nat.not_lt.2 (bd.ledMap.panel i (Nat.not_lt.1 hi)))

/-- R101 (e) follows from (b): the last step index is not at its own place. -/
theorem ledBit_moves_step : ∃ i : Fin 16, i.val < 8 ∧ ledBit bd i ≠ i := by
  refine ⟨7, by decide, ?_⟩
  rw [ledBit_seven]
  decide

end

/-- Settles O20: the response is read off the table, which every build holds with its constraints and every step keeps. -/
theorem mapRespondsAdmissibleTable : Obligations.MapRespondsAdmissibleTable := by
  intro s
  exact ⟨fun _ ha => execMapL2b_of_lt ha s, fun _ ha => execMapL2b_of_ge ha s, ledBit_bijective s.build,
    ledBit_seven s.build, ledBit_fifteen s.build, ledBit_lt_eight_iff s.build, ledBit_moves_step s.build,
    fun _ hstep => congrArg Build.ledMap (nothingUndone_step hstep).build⟩

end Sys2Proof.Machine
end

section
/-! PROOFS. The LED commands on the brightness table, and LED.INIT (42_led_engine.md): the order of checks for each backend
(R113, R123, R175), the rescale (R112), what each command leaves in every entry (R116 to R121), and the state LED.INIT
reaches (R111, R124). -/

namespace Sys2Proof.Machine

/-! ### The checks (R113, R123, R175) -/

section
variable {s : State}

/-- An index below `N_LED`, of an initialised engine, passes both checks. -/
theorem ledIndexedCommand_of_lt {a : Byte} (ha : a.toNat < nLed (backendOf s.build)) (hled : s.led.inited = true)
    (f : Fin 16 → State) : ledIndexedCommand a s f = .next (f ⟨a.toNat, ha.trans_le (nLed_le _)⟩) :=
  (ledIndexedCommand_next ..).2 (.inr ⟨_, ledIndex_of_lt _ a ha, hled, rfl⟩)

theorem ledCommand_of_inited (hbackend : backendOf s.build ≠ .disabled) (hled : s.led.inited = true) (e : State) :
    ledCommand s e = .next e :=
  (ledCommand_next ..).2 (.inr ⟨hbackend, hled, rfl⟩)

theorem ledCommand_of_disabled (hbackend : backendOf s.build = .disabled) (e : State) :
    ledCommand s e = .next (ignoreCall s) :=
  (ledCommand_next ..).2 (.inl ⟨hbackend, rfl⟩)

/-- With no LED every index is out of range. -/
theorem ledIndexedCommand_of_disabled (hbackend : backendOf s.build = .disabled) (a : Byte) (f : Fin 16 → State) :
    ledIndexedCommand a s f = .next (ignoreCall s) :=
  ledIndexedCommand_of_ge (by rw [hbackend]; exact Nat.zero_le _) f

theorem execLedInit_of_disabled (hbackend : backendOf s.build = .disabled) : execLedInit s = .next (ignoreCall s) :=
  (execLedInit_next ..).2 (congrArg (respond 0) (ledInitSteps_disabled s hbackend))

end

/-- Settles O9: LED.INIT has no steps, an indexed command fails the range check, and the others are ignored. -/
theorem disabledBackendIgnoresLedCommands : Obligations.DisabledBackendIgnoresLedCommands := by
  intro i s hunit hbackend
  cases i with
  | ledInit => exact execLedInit_of_disabled hbackend
  | ledSet | ledAdd | ledOn => exact ledIndexedCommand_of_disabled hbackend ..
  | ledUpdate | ledSetall | ledSetbin | ledClear | ledCont => exact ledCommand_of_disabled hbackend _
  | _ => cases hunit

/-! ### The rescale (R112) -/

theorem scaleNat_eq (x : Half) : scaleNat x = min x.toNat 1000 * 255 / 1000 := rfl

theorem scaleNat_mono {x y : Half} (hxy : x.toNat ≤ y.toNat) : scaleNat x ≤ scaleNat y :=
  Nat.div_le_div_right (Nat.mul_le_mul_right _ (min_le_min_right _ hxy))

theorem scale_mono {x y : Half} (hxy : x.toNat ≤ y.toNat) : (scale x).toNat ≤ (scale y).toNat := by
  rw [scale_toNat, scale_toNat]
  exact scaleNat_mono hxy

/-- Every intensity from `I_MAX` on is clamped to full brightness. -/
theorem scale_of_ge {x : Half} (hx : 1000 ≤ x.toNat) : scale x = 255 := by
  apply BitVec.eq_of_toNat_eq
  rw [scale_toNat, scaleNat_eq, min_eq_right hx]
  rfl

/-- Settles O21: the stored byte holds the formula's value, each part of which is monotone. -/
theorem rescaleIsClampedProportionalMonotone : Obligations.RescaleIsClampedProportionalMonotone := by
  refine ⟨fun x => ⟨?_, ?_, scale_of_ge⟩, rfl, fun _ _ => scale_mono⟩
  · rw [scale_toNat, scaleNat_eq]
  · rw [scale_toNat]; exact scaleNat_le x

/-! ### One entry (R116, R117) -/

/-- One entry replaced, read as numbers. -/
theorem setEntry_toNat (b : Vector Byte 16) (i : Fin 16) (v : Byte) (j : Fin 16) :
    (setEntry b i v)[j].toNat = if j.val = i.val then v.toNat else b[j].toNat := by
  rw [Fin.getElem_fin, setEntry_getElem, apply_ite BitVec.toNat]
  simp only [eq_comm, Fin.getElem_fin]

/-- Settles O22: the one entry takes the rescaled intensity. -/
theorem ledSetStoresBrightness : Obligations.LedSetStoresBrightness := by
  intro s a x hled ha
  refine ⟨_, ledIndexedCommand_of_lt ha hled _, rfl, fun j => ?_⟩
  rw [← scaleNat_eq, ← scale_toNat]
  exact setEntry_toNat s.led.b ⟨a.toNat, _⟩ (scale x) j

/-- Settles O23: the one entry takes the saturated sum of its old value and the rescaled delta. -/
theorem ledAddSaturates : Obligations.LedAddSaturates := by
  intro s a x hled ha
  refine ⟨_, ledIndexedCommand_of_lt ha hled _, rfl, fun j => ?_⟩
  refine (setEntry_toNat ..).trans (ite_congr rfl (fun hj => ?_) fun _ => rfl)
  obtain rfl : j = ⟨a.toNat, ha.trans_le (nLed_le _)⟩ := Fin.ext hj
  exact addSaturate_toNat _ x

/-! ### The level meter (R118) -/

theorem setallK_eq (be : Backend) : setallK be = 255 * nLed be := by
  cases be <;> rfl

theorem setallBudget_eq (be : Backend) (x : Half) :
    setallBudget be x = min x.toNat 1000 * (255 * nLed be) / 1000 := by
  rw [setallBudget, setallK_eq]
  rfl

/-- The level meter over the LEDs of a backend, entry by entry. -/
theorem spread_ledIndices_toNat (be : Backend) (budget : Nat) (b : Vector Byte 16) (j : Fin 16) :
    (spread (ledIndices be) budget b)[j].toNat =
      if j.val < nLed be then min 255 (budget - 255 * j.val) else b[j].toNat := by
  have hlength : (ledIndices be).length = nLed be := by
    rw [← List.length_map (f := Fin.val), ledIndices_vals, List.length_range']
  have hvals : (ledIndices be).map Fin.val = List.range' 0 (ledIndices be).length := by
    rw [hlength, ledIndices_vals]
  rw [Fin.getElem_fin, spread_getElem _ 0 budget b hvals j.val j.isLt, hlength]
  split
  next h =>
    rw [if_pos (by omega), BitVec.toNat_ofNat, Nat.mod_eq_of_lt (by omega), min_comm, Nat.sub_zero]
  next h => rw [if_neg (by omega), Fin.getElem_fin]

/-- What `n` LEDs in a row take of a budget, each `255` at most, adds up to the budget or to what they can hold. -/
theorem sum_levelMeter (n budget m : Nat) :
    ((List.range m).map (fun j => if j < n then min 255 (budget - 255 * j) else 0)).sum = min budget (255 * min m n) := by
  induction m with
  | zero => simp
  | succ m ih =>
    rw [List.sum_range_succ, ih]
    split <;> omega

/-- Settles O24: the entries are the level meter's, and the backend's LEDs can hold the whole budget. -/
theorem ledSetallDistributesBudget : Obligations.LedSetallDistributesBudget := by
  intro s x hled hbackend budget
  have hbudget : setallBudget (backendOf s.build) x = budget := setallBudget_eq ..
  have hfits : budget ≤ 255 * nLed (backendOf s.build) := hbudget ▸ setallBudget_le ..
  have hentry := spread_ledIndices_toNat (backendOf s.build) budget s.led.b
  refine ⟨_, ledCommand_of_inited hbackend hled _, rfl, ?_⟩
  rw [hbudget]
  refine ⟨hentry, ?_⟩
  calc ((List.finRange 16).map _).sum
    _ = ((List.finRange 16).map ((fun j => if j < nLed (backendOf s.build) then min 255 (budget - 255 * j) else 0) ∘
          Fin.val)).sum := by
        congr 2
        funext j
        refine ite_congr rfl (fun hj => ?_) fun _ => rfl
        exact (hentry j).trans (if_pos hj)
    _ = min budget (255 * min 16 (nLed (backendOf s.build))) := by
        rw [← List.map_map, List.map_coe_finRange_eq_range, sum_levelMeter]
    _ = budget := by rw [min_eq_right (nLed_le _), min_eq_left hfits]

/-! ### The bits of a byte (R119) -/

/-- Settles O25: the entries are those of the byte shown, full or dark. -/
theorem ledSetbinShowsByteMsbFirst : Obligations.LedSetbinShowsByteMsbFirst := by
  intro s c hled hbackend
  refine ⟨_, ledCommand_of_inited hbackend hled _, rfl, fun j => ?_⟩
  have hentry := congrArg BitVec.toNat (showByte_getElem c s.led.b j.val j.isLt)
  rw [apply_ite BitVec.toNat, apply_ite BitVec.toNat] at hentry
  exact hentry

/-! ### One LED, or none (R120, R121) -/

theorem darken_ledIndices_getElem (be : Backend) (b : Vector Byte 16) (j : Fin 16) :
    (darken (ledIndices be) b)[j] = if j.val < nLed be then 0 else b[j] := by
  simp only [Fin.getElem_fin, darken_getElem, mem_ledIndices]

theorem darken_ledIndices_toNat (be : Backend) (b : Vector Byte 16) (j : Fin 16) :
    (darken (ledIndices be) b)[j].toNat = if j.val < nLed be then 0 else b[j].toNat := by
  rw [darken_ledIndices_getElem, apply_ite BitVec.toNat]
  rfl

/-- Settles O26: both commands darken the backend's LEDs, and LED.ON then fills its one entry. -/
theorem ledOnAndClearDarkenTheRest : Obligations.LedOnAndClearDarkenTheRest := by
  intro s hled hbackend
  have hdark := darken_ledIndices_toNat (backendOf s.build) s.led.b
  refine ⟨fun a ha => ⟨_, ledIndexedCommand_of_lt ha hled _, rfl, fun j => ?_⟩,
    ⟨_, ledCommand_of_inited hbackend hled _, rfl, hdark⟩⟩
  rw [← hdark]
  exact setEntry_toNat _ ⟨a.toNat, _⟩ (BitVec.ofNat 8 bMax) j

/-! ### LED.INIT (R111, R124) -/

/-- Settles O29: the steps reach one state of driver, chain and engine whatever they held. -/
theorem ledInitShift16ReachesKnownState : Obligations.LedInitShift16ReachesKnownState := by
  intro s hbackend
  refine (execLedInit_next ..).2 ?_
  rw [ledInitSteps_shift16 s hbackend]
  rfl

/-- Settles O30: the steps write the engine and the trace; the entries they zero are the backend's eight. -/
theorem ledInitGpio8ReachesKnownState : Obligations.LedInitGpio8ReachesKnownState := by
  intro s hbackend
  refine ⟨_, (execLedInit_next ..).2 rfl, ?_⟩
  rw [ledInitSteps_gpio8 s hbackend]
  exact ⟨rfl, darken_ledIndices_getElem .gpio8 s.led.b, rfl, rfl, rfl,
    fun k => Vector.getElem_replicate k.isLt, fun k => Vector.getElem_replicate k.isLt⟩

end Sys2Proof.Machine
end

section
/-! PROOFS. What the LED engine does with a period: the cadence of LED.CONT (R122), one PWM tick on each backend (R115, R124),
and the duty law (R114, R125). A command issued again and again is followed by `exists_repeated`; how many of the steps of one
period have a phase below a bound is `length_filter_phase`. -/

namespace Sys2Proof.Machine

/-! ### A command issued again and again -/

theorem repeated_succ {i : Instr} {n : Nat} {s t u : State} (hn : repeated i n s = some t) (hexec : exec i t = .next u) :
    repeated i (n + 1) s = some u := by
  induction n generalizing s with
  | zero =>
    obtain rfl : s = t := Option.some.inj hn
    simp [repeated, hexec]
  | succ n ih =>
    rw [repeated] at hn ⊢
    cases h : exec i s with
    | next r => rw [h] at hn; exact ih hn
    | fault | refused => rw [h] at hn; cases hn

/-- What holds at the start and is handed on by each execution holds after any number of them. -/
theorem exists_repeated {i : Instr} {P : Nat → State → Prop} {s : State} (hstart : P 0 s)
    (hexec : ∀ n t, P n t → ∃ u, exec i t = .next u ∧ P (n + 1) u) (n : Nat) :
    ∃ t, repeated i n s = some t ∧ P n t := by
  induction n with
  | zero => exact ⟨s, rfl, hstart⟩
  | succ n ih =>
    obtain ⟨t, hn, ht⟩ := ih
    obtain ⟨u, hu, hP⟩ := hexec n t ht
    exact ⟨u, repeated_succ hn hu, hP⟩

theorem afterRepeated_of_repeated {i : Instr} {n : Nat} {s t : State} (hn : repeated i n s = some t)
    (holds : State → Bool) : afterRepeated i n s holds = holds t := by
  rw [afterRepeated, hn]

/-! ### Counting the steps of a period -/

/-- Over one whole period the count of a periodic property does not depend on where it starts. -/
theorem count_add_of_periodic {p : Nat → Prop} [DecidablePred p] {m : Nat} (hp : Function.Periodic p m) (a : Nat) :
    Nat.count (fun k => p (a + k)) m = Nat.count p m := by
  have hfrom := Nat.count_add p a m
  have hover := Nat.count_add p m a
  have hshift : Nat.count (fun k => p (m + k)) a = Nat.count p a := by
    simp only [Nat.add_comm m, hp _]
  rw [Nat.add_comm m a] at hover
  omega

theorem count_mod_lt {m v : Nat} (hv : v ≤ m) : Nat.count (fun k => k % m < v) m = v := by
  have hbelow : {k ∈ Finset.range m | k % m < v} = Finset.range v := by
    ext k
    simp only [Finset.mem_filter, Finset.mem_range]
    refine ⟨fun ⟨hk, hphase⟩ => ?_, fun hk => ⟨by omega, ?_⟩⟩
    · rwa [Nat.mod_eq_of_lt hk] at hphase
    · rwa [Nat.mod_eq_of_lt (by omega)]
  rw [Nat.count_eq_card_filter_range, hbelow, Finset.card_range]

/-- Of `m` steps in a row exactly `v` have a phase modulo `m` below `v`, whatever the phase at the start. -/
theorem length_filter_phase {m v : Nat} (hv : v ≤ m) (a : Nat) {f : Nat → Bool}
    (hf : ∀ k < m, f k = decide ((a + k + 1) % m < v)) : ((List.range m).filter f).length = v := by
  have hperiodic : Function.Periodic (fun k => k % m < v) m := fun k => by simp
  calc ((List.range m).filter f).length
    _ = ((List.range m).filter fun k => decide ((a + 1 + k) % m < v)).length := by
        refine congrArg List.length (List.filter_congr fun k hk => ?_)
        rw [hf k (List.mem_range.1 hk), Nat.add_right_comm]
    _ = Nat.count (fun k => (a + 1 + k) % m < v) m := List.countP_eq_length_filter.symm
    _ = v := (count_add_of_periodic hperiodic (a + 1)).trans (count_mod_lt hv)

/-! ### The cadence (R122) -/

/-- Settles O27: the last count of the period takes the first arm, every other count the second. -/
theorem ledContAdvancesCadence : Obligations.LedContAdvancesCadence := by
  intro s hled hbackend hcc
  refine (execLedCont_next ..).2 (.inr ⟨hbackend, hled, ?_⟩)
  by_cases hlast : s.led.cc.toNat = 999
  · rw [if_pos (show s.led.cc.toNat + 1 = contPeriod by rw [hlast]; rfl), if_pos hlast, if_pos hlast]
    rfl
  · have hnext : s.led.cc + 1 = BitVec.ofNat 10 (s.led.cc.toNat + 1) := by simp [BitVec.ofNat_add]
    rw [if_neg (show s.led.cc.toNat + 1 ≠ contPeriod by unfold contPeriod; omega), if_neg hlast, if_neg hlast, hnext]
    rfl

/-- The state after `n` LED.CONT from `s`. -/
structure AfterCont (s : State) (n : Nat) (t : State) : Prop where
  led : t.led.inited = true
  backend : backendOf t.build ≠ .disabled
  count : t.led.cc.toNat = (s.led.cc.toNat + n) % 1000
  answer : n ≠ 0 → t.resp = if (s.led.cc.toNat + n) % 1000 = 0 then 1 else 0

theorem AfterCont.succ {s t : State} {n : Nat} (h : AfterCont s n t) :
    ∃ u, exec .ledCont t = .next u ∧ AfterCont s (n + 1) u := by
  obtain ⟨hled, hbackend, hcount, _⟩ := h
  refine ⟨_, ledContAdvancesCadence t hled hbackend (by omega), hled, hbackend, ?_, fun _ => ?_⟩
  · simp only
    split
    next => simp; omega
    next => rw [BitVec.toNat_ofNat]; omega
  · exact if_congr (by omega) rfl rfl

theorem exists_afterCont {s : State} (hled : s.led.inited = true) (hbackend : backendOf s.build ≠ .disabled)
    (hcc : s.led.cc.toNat < 1000) (n : Nat) : ∃ t, repeated .ledCont n s = some t ∧ AfterCont s n t :=
  exists_repeated ⟨hled, hbackend, (Nat.mod_eq_of_lt hcc).symm, absurd rfl⟩ (fun _ _ => AfterCont.succ) n

/-- Settles O28: call `k` answers 1 exactly when the count it reaches has phase 0 modulo 1000. -/
theorem cadenceAnswersOncePerThousand : Obligations.CadenceAnswersOncePerThousand := by
  intro s hled hbackend hcc
  have hresp : ∀ (k : Nat) (holds : Half → Bool), afterRepeated .ledCont (k + 1) s (fun t => holds t.resp) =
      holds (if (s.led.cc.toNat + k + 1) % 1000 = 0 then 1 else 0) := by
    intro k holds
    obtain ⟨t, hrepeated, hcont⟩ := exists_afterCont hled hbackend hcc (k + 1)
    rw [afterRepeated_of_repeated hrepeated, hcont.answer k.succ_ne_zero, Nat.add_assoc]
  refine ⟨length_filter_phase (by decide) s.led.cc.toNat fun k _ => ?_, fun k _ => ?_⟩
  · rw [hresp k (· == 1)]
    split <;> simp [*]
  · rw [hresp k fun v => v == 0 || v == 1]
    split <;> rfl

/-! ### One tick (R115, R124) -/

theorem phaseOf_eq (dc : BitVec dutyWidth) : phaseOf dc = dc.toNat % 256 := rfl

/-- The phase is that of the count as a number: the wrap of the counter keeps it, as 256 divides `2^32`. -/
theorem phaseOf_bumpDuty (s : State) : phaseOf (bumpDuty s).led.dc = (s.led.dc.toNat + 1) % 256 := by
  rw [bumpDuty, setDuty_led, phaseOf_succ, phaseOf_eq, Nat.mod_add_mod]

theorem bumpDuty_eq (s : State) :
    bumpDuty s = { s with led := { s.led with dc := BitVec.ofNat 32 (s.led.dc.toNat + 1) } } := by
  have hdc : s.led.dc + 1 = BitVec.ofNat 32 (s.led.dc.toNat + 1) := by simp [BitVec.ofNat_add]
  rw [bumpDuty, hdc]
  rfl

/-- A tick with `SHIFT16` sends one image, whose bits are the compares. -/
theorem exists_tickImage {s : State} (hbackend : backendOf s.build = .shift16) :
    ∃ v, respond 0 (tickSteps s) = sendImage v (bumpDuty s) ∧ ∀ i : Fin 16,
      v.getLsbD (ledBit s.build i).val = decide ((s.led.dc.toNat + 1) % 256 < s.led.b[i].toNat) := by
  refine ⟨(writeFrame (bumpDuty s)).srd.img, ?_, fun i => ?_⟩
  · rw [sendImage, ← writeFrame_eq]
    simp only [tickSteps, hbackend]
  · have hbit := writeFrame_bit (bumpDuty s) i
    rw [phaseOf_bumpDuty] at hbit
    exact hbit

/-- A tick with `GPIO8` writes eight levels, which are the compares. -/
theorem exists_tickLevels {s : State} (hbackend : backendOf s.build = .gpio8) :
    ∃ levels : Vector Bool 8,
      respond 0 (tickSteps s) =
        { bumpDuty s with
          led := { (bumpDuty s).led with pinLevel := levels }
          trace := s.trace ++ pinsTickEvents s.build (fun k => levels[k])
          resp := 0 } ∧
      ∀ k : Fin 8, levels[k] =
        decide ((s.led.dc.toNat + 1) % 256 < s.led.b[k.castLE (by decide : 8 ≤ 16)].toNat) := by
  have htick : tickSteps s = writePins (bumpDuty s) := by simp only [tickSteps, hbackend]
  have hlevel := foldl_setEntry_all
    (fun k : Fin 8 => pwmOn (phaseOf (bumpDuty s).led.dc) (bumpDuty s).led.b[k.castLE (by decide : 8 ≤ 16)])
    s.led.pinLevel
  refine ⟨_, ?_, fun k => (hlevel k).trans (by rw [phaseOf_bumpDuty]; rfl)⟩
  rw [htick, writePins_eq, ← funext hlevel]
  rfl

/-- Settles O31: the tick sends, from low clock lines, the frame whose bits are the compares. -/
theorem ledUpdateShift16TransmitsFrame : Obligations.LedUpdateShift16TransmitsFrame := by
  intro s hled hbackend hsrclk hrclk
  obtain ⟨v, htick, hbits⟩ := exists_tickImage hbackend
  rw [sendImage_eq v (bumpDuty s) hsrclk hrclk, bumpDuty_eq] at htick
  exact ⟨_, (execLedUpdate_next ..).2 (.inr ⟨by simp [hbackend], hled, htick⟩), rfl, hbits⟩

/-- Settles O32: the eight writes leave each line at its compare and emit one event each, in order. -/
theorem ledUpdateGpio8WritesLines : Obligations.LedUpdateGpio8WritesLines := by
  intro s hled hbackend
  obtain ⟨levels, htick, hlevels⟩ := exists_tickLevels hbackend
  rw [bumpDuty_eq] at htick
  exact ⟨_, (execLedUpdate_next ..).2 (.inr ⟨by simp [hbackend], hled, htick⟩), rfl, hlevels⟩

/-! ### The duty law (R114, R125) -/

/-- What a tick needs: an initialised engine, and with `SHIFT16` low clock lines (R82, R172). -/
structure TickReady (s : State) : Prop where
  led : s.led.inited = true
  clocks : backendOf s.build = .shift16 → s.srd.lSrclk = false ∧ s.srd.lRclk = false

/-- `t` is a state some ticks after `s`: the build and the brightness table are kept, the phase has moved on by `n`, and if
there was a tick each LED of the backend shows the last compare. -/
structure AfterTicks (s : State) (n : Nat) (t : State) : Prop where
  ready : TickReady t
  build : t.build = s.build
  brightness : t.led.b = s.led.b
  phase : t.led.dc.toNat % 256 = (s.led.dc.toNat + n) % 256
  lit : n ≠ 0 → ∀ i : Fin 16, i.val < nLed (backendOf s.build) →
    ledLit t i = decide ((s.led.dc.toNat + n) % 256 < s.led.b[i].toNat)

theorem ledLit_shift16 {s : State} (hbackend : backendOf s.build = .shift16) (i : Fin 16) :
    ledLit s i = s.chain.q.getLsbD (ledBit s.build i).val := by
  simp only [ledLit, hbackend]

theorem ledLit_gpio8 {s : State} (hbackend : backendOf s.build = .gpio8) {i : Fin 16} (hi : i.val < 8) :
    ledLit s i = s.led.pinLevel[i.val] := by
  simp only [ledLit, hbackend, dif_pos hi]

theorem phase_ofNat_succ (n : Nat) : (BitVec.ofNat 32 (n + 1)).toNat % 256 = (n + 1) % 256 := by
  rw [BitVec.toNat_ofNat]
  omega

/-- One tick, on either backend that has LEDs. -/
theorem TickReady.tick {s : State} (h : TickReady s) (hbackend : backendOf s.build ≠ .disabled) :
    ∃ t, exec .ledUpdate s = .next t ∧ AfterTicks s 1 t := by
  rcases hbe : backendOf s.build with _ | _ | _
  case shift16 =>
    obtain ⟨hsrclk, hrclk⟩ := h.clocks hbe
    obtain ⟨t, hexec, heq, hbit⟩ := ledUpdateShift16TransmitsFrame s h.led hbe hsrclk hrclk
    rw [heq] at hexec
    refine ⟨_, hexec, ⟨h.led, fun _ => ⟨hsrclk, hrclk⟩⟩, rfl, rfl, phase_ofNat_succ _, fun _ i _ => ?_⟩
    exact (ledLit_shift16 (by exact hbe) i).trans (hbit i)
  case gpio8 =>
    obtain ⟨t, hexec, heq, hlevel⟩ := ledUpdateGpio8WritesLines s h.led hbe
    rw [heq] at hexec
    refine ⟨_, hexec, ⟨h.led, h.clocks⟩, rfl, rfl, phase_ofNat_succ _, fun _ i hi => ?_⟩
    rw [hbe] at hi
    exact (ledLit_gpio8 (by exact hbe) hi).trans (hlevel ⟨i.val, hi⟩)
  case disabled => exact absurd hbe hbackend

theorem AfterTicks.succ {s t : State} {n : Nat} (h : AfterTicks s n t) (hbackend : backendOf s.build ≠ .disabled) :
    ∃ u, exec .ledUpdate t = .next u ∧ AfterTicks s (n + 1) u := by
  obtain ⟨hready, hbuild, hbrightness, hphase, _⟩ := h
  obtain ⟨u, hexec, huready, hubuild, hubrightness, huphase, hulit⟩ := hready.tick (hbuild ▸ hbackend)
  have hnext : (t.led.dc.toNat + 1) % 256 = (s.led.dc.toNat + (n + 1)) % 256 := by omega
  rw [hnext] at huphase hulit
  rw [hbuild, hbrightness] at hulit
  exact ⟨u, hexec, huready, hubuild.trans hbuild, hubrightness.trans hbrightness, huphase,
    fun _ => hulit Nat.one_ne_zero⟩

theorem exists_afterTicks {s : State} (hready : TickReady s) (hbackend : backendOf s.build ≠ .disabled) (n : Nat) :
    ∃ t, repeated .ledUpdate n s = some t ∧ AfterTicks s n t :=
  exists_repeated ⟨hready, rfl, rfl, rfl, absurd rfl⟩ (fun _ _ h => h.succ hbackend) n

theorem backend_ne_disabled_of_lt {be : Backend} {n : Nat} (h : n < nLed be) : be ≠ .disabled := by
  rintro rfl
  exact absurd h n.not_lt_zero

/-- Tick `k` lights a LED of the backend exactly when its phase is below the brightness. -/
theorem litAfter_eq {s : State} (hready : TickReady s) {i : Fin 16} (hi : i.val < nLed (backendOf s.build)) (k : Nat)
    (holds : Bool → Bool) : afterRepeated .ledUpdate (k + 1) s (fun t => holds (ledLit t i)) =
      holds (decide ((s.led.dc.toNat + k + 1) % 256 < s.led.b[i].toNat)) := by
  obtain ⟨t, hrepeated, hticks⟩ := exists_afterTicks hready (backend_ne_disabled_of_lt hi) (k + 1)
  rw [afterRepeated_of_repeated hrepeated, hticks.lit k.succ_ne_zero i hi, Nat.add_assoc]

/-- Settles O33: each tick shows one compare, and a period holds as many phases below `v` as `v` says. -/
theorem dutyIsBrightnessOver256 : Obligations.DutyIsBrightnessOver256 := by
  intro s i hled hi hclocks
  have hlit := litAfter_eq ⟨hled, hclocks⟩ hi
  refine ⟨length_filter_phase (m := 256) s.led.b[i].isLt.le s.led.dc.toNat fun k _ => hlit k id, fun k => ?_⟩
  rw [hlit k fun lit => lit == decide ((s.led.dc.toNat + k + 1) % 256 < s.led.b[i].toNat)]
  exact beq_self_eq_true _

/-- How many ticks of a period light a LED after LED.SET: as many as the rescaled intensity says. -/
theorem exists_ledSet_duty {s : State} {a : Byte} {i : Fin 16} (hready : TickReady s) (hia : i.val = a.toNat)
    (hi : i.val < nLed (backendOf s.build)) (x : Half) :
    ∃ t, exec (.ledSet a x) s = .next t ∧
      ((List.range 256).filter fun k => afterRepeated .ledUpdate (k + 1) t (fun v => ledLit v i)).length =
        (scale x).toNat := by
  obtain ⟨t, hexec, heq, hentry⟩ := ledSetStoresBrightness s a x hready.led (hia ▸ hi)
  have hstored : t.led.b[i].toNat = (scale x).toNat := by
    rw [hentry i, if_pos hia, scale_toNat, scaleNat_eq]
  have hduty := dutyIsBrightnessOver256 t i
  rw [hstored, heq] at hduty
  refine ⟨t, hexec, ?_⟩
  rw [heq]
  exact (hduty hready.led hi hready.clocks).1

/-- Settles O34: the ticks lit are the rescaled intensities, and the rescale is monotone. -/
theorem higherIntensityNeverLitLess : Obligations.HigherIntensityNeverLitLess := by
  intro s a x y i hled hia hi hclocks hxy
  obtain ⟨t, ht, hlitx⟩ := exists_ledSet_duty ⟨hled, hclocks⟩ hia hi x
  obtain ⟨u, hu, hlity⟩ := exists_ledSet_duty ⟨hled, hclocks⟩ hia hi y
  exact ⟨scale_mono hxy, t, u, ht, hu, hlitx.trans_le ((scale_mono hxy).trans_eq hlity.symm)⟩

end Sys2Proof.Machine
end

section
/-! PROOFS. The AMX commands that draw no sample (43_analog_mux.md): the state AMX.INIT reaches (R147), the reported value
(R149), and the startup window as AMX.CHANGED counts it down and the reset commands re-arm it (R150 to R152). -/

namespace Sys2Proof.Machine

/-! ### The checks (R46, R175) -/

/-- The operand that names channel `ch` is in the index space and means that channel. -/
theorem index16_ofNat (ch : Fin 16) : index16 (BitVec.ofNat 8 ch.val) = some ch := by
  have hch : (BitVec.ofNat 8 ch.val).toNat = ch.val := by rw [BitVec.toNat_ofNat]; omega
  rw [index16_of_lt _ (hch.trans_lt ch.isLt)]
  exact congrArg some (Fin.ext hch)

theorem indexedCommand_ofNat {flag : Bool} (hflag : flag = true) (u : Unit3) (ch : Fin 16) (s : State)
    (f : Fin 16 → State) : indexedCommand u flag (BitVec.ofNat 8 ch.val) s f = .next (f ch) :=
  (indexedCommand_next ..).2 (.inr ⟨ch, index16_ofNat ch, hflag, rfl⟩)

theorem setEntry_getElem_fin {α : Type} {n : Nat} (v : Vector α n) (i : Fin n) (x : α) (j : Fin n) :
    (setEntry v i x)[j] = if j = i then x else v[j] := by
  simp only [Fin.getElem_fin, setEntry_getElem, Fin.ext_iff, eq_comm]

/-! ### AMX.INIT (R147) -/

/-- Settles O36: every step writes a fixed value, and the four lines and the input are configured once each. -/
theorem amxInitArmsEveryChannel : Obligations.AmxInitArmsEveryChannel :=
  fun s f => ⟨(execAmxInit_next f s _).2 rfl, rfl⟩

/-! ### The reported value (R149) -/

/-- Settles O39: the response is the table entry widened, and no check looks at the window. -/
theorem amxValueRespondsReported : Obligations.AmxValueRespondsReported := by
  intro s ch hamx
  rw [BitVec.ofNat_toNat]
  exact indexedCommand_ofNat hamx .amx ch s _

/-! ### The window (R150 to R152) -/

/-- Settles O40: the two arms of the command, by the counter. -/
theorem amxChangedPollsWindowThenFlag : Obligations.AmxChangedPollsWindowThenFlag := by
  intro s ch hamx
  refine ⟨_, indexedCommand_ofNat hamx .amx ch s _, fun hzero => ?_, fun hsup => ?_⟩
  · have hopen : s.amx.sup[ch] = 0 := BitVec.eq_of_toNat_eq hzero
    rw [if_pos hopen, boolResp_eq_ite]
    rfl
  · have hclosed : s.amx.sup[ch] ≠ 0 := fun h => hsup (by rw [h]; rfl)
    rw [if_neg hclosed]
    refine ⟨rfl, fun j => ?_⟩
    have hpred : (s.amx.sup[ch] - 1).toNat = s.amx.sup[ch].toNat - 1 := by bv_omega
    rw [← hpred, ← apply_ite BitVec.toNat]
    exact congrArg BitVec.toNat (setEntry_getElem_fin ..)

/-- Settles O41: one entry, or every entry, becomes the startup count. -/
theorem amxResetRearmsWindowOnly : Obligations.AmxResetRearmsWindowOnly := by
  intro s hamx
  refine ⟨fun ch => ⟨_, indexedCommand_ofNat hamx .amx ch s _, rfl, fun j => ?_⟩,
    (execAmxResetall_next ..).2 ⟨hamx, rfl⟩⟩
  exact (congrArg BitVec.toNat (setEntry_getElem_fin ..)).trans (apply_ite BitVec.toNat ..)

/-- The state after `n` polls of channel `ch` from `s`: the flag is kept, the counter is down by `n` or at zero, and the
last poll responded the flag exactly if the counter had run out before it. -/
structure AfterPolls (s : State) (ch : Fin 16) (n : Nat) (t : State) : Prop where
  amx : t.amx.inited = true
  flag : t.amx.chg[ch] = s.amx.chg[ch]
  count : t.amx.sup[ch].toNat = s.amx.sup[ch].toNat - n
  answer : n ≠ 0 → t.resp = if s.amx.sup[ch].toNat < n then (if s.amx.chg[ch] then 1 else 0) else 0

theorem AfterPolls.succ {s t : State} {ch : Fin 16} {n : Nat} (h : AfterPolls s ch n t) :
    ∃ u, exec (.amxChanged (BitVec.ofNat 8 ch.val)) t = .next u ∧ AfterPolls s ch (n + 1) u := by
  obtain ⟨hamx, hflag, hcount, _⟩ := h
  obtain ⟨u, hexec, hopen, hclosed⟩ := amxChangedPollsWindowThenFlag t ch hamx
  refine ⟨u, hexec, ?_⟩
  by_cases hzero : t.amx.sup[ch].toNat = 0
  · have hsup : t.amx.sup[ch].toNat = s.amx.sup[ch].toNat - (n + 1) := by omega
    have hresp : (if t.amx.chg[ch] then 1 else 0 : Half) =
        if s.amx.sup[ch].toNat < n + 1 then (if s.amx.chg[ch] then 1 else 0) else 0 := by
      rw [hflag]; exact (if_pos (by omega)).symm
    rw [hopen hzero]
    exact ⟨hamx, hflag, hsup, fun _ => hresp⟩
  · obtain ⟨hframe, hcounters⟩ := hclosed hzero
    have hsup : u.amx.sup[ch].toNat = s.amx.sup[ch].toNat - (n + 1) := by
      rw [hcounters ch, if_pos rfl]; omega
    refine ⟨by rw [hframe]; exact hamx, by rw [hframe]; exact hflag, hsup, fun _ => ?_⟩
    rw [hframe]
    exact (if_neg (by omega)).symm

theorem exists_afterPolls {s : State} (hamx : s.amx.inited = true) (ch : Fin 16) (n : Nat) :
    ∃ t, repeated (.amxChanged (BitVec.ofNat 8 ch.val)) n s = some t ∧ AfterPolls s ch n t :=
  exists_repeated ⟨hamx, rfl, rfl, absurd rfl⟩ (fun _ _ => AfterPolls.succ) n

/-- Poll `k` responds the flag exactly if the window is at most `k` polls long. -/
theorem pollAnswer_eq {s : State} (hamx : s.amx.inited = true) (ch : Fin 16) (k : Nat) (holds : Half → Bool) :
    afterRepeated (.amxChanged (BitVec.ofNat 8 ch.val)) (k + 1) s (fun t => holds t.resp) =
      holds (if s.amx.sup[ch].toNat ≤ k then (if s.amx.chg[ch] then 1 else 0) else 0) := by
  obtain ⟨t, hrepeated, hpolls⟩ := exists_afterPolls hamx ch (k + 1)
  rw [afterRepeated_of_repeated hrepeated, hpolls.answer k.succ_ne_zero]
  simp only [Nat.lt_succ_iff]

/-- Settles O42: poll `k` is inside the window or after it. -/
theorem startupWindowSuppressesPolls : Obligations.StartupWindowSuppressesPolls := by
  intro s ch hamx
  refine ⟨fun k hk => ?_, fun k hk => ?_⟩
  · rw [pollAnswer_eq hamx ch k (· == 0), if_neg hk.not_ge]
    rfl
  · rw [pollAnswer_eq hamx ch k (· == if s.amx.chg[ch] then 1 else 0), if_pos hk]
    exact beq_self_eq_true _

end Sys2Proof.Machine
end

section
/-! PROOFS. The AMX commands that draw samples (43_analog_mux.md R144 to R148), and the hysteresis of the reported value
(R153). What a scan of a list of channels does is said once, in `Scanned`; AMX.READ scans one channel, AMX.READALL all
sixteen. -/

namespace Sys2Proof.Machine

variable {s t u : State} {ch : Fin 16} {raw : AdcCode}

/-! ### One channel (R145, R146) -/

/-- In `t` the tables of channel `ch` hold what the comparator makes of the sample `raw` and the tables of `s`. -/
structure Compared (s : State) (ch : Fin 16) (raw : AdcCode) (t : State) : Prop where
  cur : t.amx.cur[ch].toNat = 4095 - raw.toNat
  passed : (s.build.knobThreshold.toNat : Int) < |((4095 - raw.toNat : Nat) : Int) - s.amx.rep[ch].toNat| →
    t.amx.rep[ch].toNat = 4095 - raw.toNat ∧ t.amx.chg[ch] = true
  failed : ¬ (s.build.knobThreshold.toNat : Int) < |((4095 - raw.toNat : Nat) : Int) - s.amx.rep[ch].toNat| →
    t.amx.rep[ch] = s.amx.rep[ch] ∧ t.amx.chg[ch] = (s.build.flagSticky && s.amx.chg[ch])

/-- The tables of channel `ch` are the same in both states. -/
structure ChannelKept (s : State) (ch : Fin 16) (t : State) : Prop where
  cur : t.amx.cur[ch] = s.amx.cur[ch]
  rep : t.amx.rep[ch] = s.amx.rep[ch]
  chg : t.amx.chg[ch] = s.amx.chg[ch]

theorem ChannelKept.trans (hst : ChannelKept s ch t) (htu : ChannelKept t ch u) : ChannelKept s ch u :=
  ⟨htu.cur.trans hst.cur, htu.rep.trans hst.rep, htu.chg.trans hst.chg⟩

theorem ChannelKept.respond (h : ChannelKept s ch t) (v : Half) : ChannelKept s ch (respond v t) := { h with }

theorem Compared.respond (h : Compared s ch raw t) (v : Half) : Compared s ch raw (respond v t) := { h with }

theorem Compared.trans_kept (hst : Compared s ch raw t) (htu : ChannelKept t ch u) : Compared s ch raw u := by
  obtain ⟨hcur, hrep, hchg⟩ := htu
  constructor
  · rw [hcur]; exact hst.cur
  · rw [hrep, hchg]; exact hst.passed
  · rw [hrep, hchg]; exact hst.failed

theorem ChannelKept.trans_compared (hst : ChannelKept s ch t) (hbuild : t.build = s.build)
    (htu : Compared t ch raw u) : Compared s ch raw u := by
  obtain ⟨hcur, hpassed, hfailed⟩ := htu
  rw [hst.rep, hbuild] at hpassed hfailed
  rw [hst.chg] at hfailed
  exact ⟨hcur, hpassed, hfailed⟩

/-- The comparator's test on the inverted sample, as numbers (R145, R146). -/
theorem changePasses_invertSample (threshold raw rep : AdcCode) :
    changePasses threshold (invertSample raw) rep = true ↔
      (threshold.toNat : Int) < |((4095 - raw.toNat : Nat) : Int) - rep.toNat| := by
  rw [changePasses_iff, invertSample_toNat]

theorem readChannel_compared (ch : Fin 16) (s : State) : Compared s ch (sampleAt s 0) (readChannel ch s) := by
  rw [readChannel_eq, nextSample_eq]
  constructor <;> simp only [setEntry_getElem_fin, if_true]
  · exact invertSample_toNat _
  · intro hpass
    rw [(changePasses_invertSample ..).2 hpass]
    exact ⟨invertSample_toNat _, rfl⟩
  · intro hfail
    rw [Bool.eq_false_iff.2 (mt (changePasses_invertSample ..).1 hfail)]
    exact ⟨rfl, rfl⟩

theorem readChannel_kept {j : Fin 16} (hj : j ≠ ch) (s : State) : ChannelKept s j (readChannel ch s) := by
  rw [readChannel_eq]
  constructor <;> simp only [setEntry_getElem_fin, if_neg hj]

/-- The select lines carry the channel's number in binary (R69, R141). -/
theorem routedChannel_readChannel (ch : Fin 16) (s : State) : routedChannel (readChannel ch s) = ch.val := by
  have hbinary : ∀ ch : Fin 16, (selectBits ch)[3].toNat * 8 + (selectBits ch)[2].toNat * 4 +
      (selectBits ch)[1].toNat * 2 + (selectBits ch)[0].toNat = ch.val := by decide
  rw [readChannel_eq]
  exact hbinary ch

/-! ### A list of channels (R148) -/

/-- From `s` to `t` the channels of the list were read in order, `sample` giving the raw code each of them drew: nothing but
the tables, the select lines, the trace and the converter's count is written. -/
structure Scanned (chs : List (Fin 16)) (sample : Fin 16 → AdcCode) (s t : State) : Prop where
  frame : t =
    { s with
      amx := { s.amx with cur := t.amx.cur, rep := t.amx.rep, chg := t.amx.chg, sel := t.amx.sel }
      trace := s.trace ++ chs.flatMap (fun ch => readEvents s.build ch (sample ch))
      adcIn := s.adcIn.drop chs.length
      adcDraws := s.adcDraws + chs.length }
  compared : ∀ ch ∈ chs, Compared s ch (sample ch) t
  kept : ∀ ch ∉ chs, ChannelKept s ch t

theorem Scanned.nil (sample : Fin 16 → AdcCode) (s : State) : Scanned [] sample s s where
  frame := by simp
  compared := by simp
  kept _ _ := ⟨rfl, rfl, rfl⟩

/-- A channel read before a scan of other channels. -/
theorem Scanned.cons {chs : List (Fin 16)} {sample : Fin 16 → AdcCode} (hch : ch ∉ chs)
    (hsample : sample ch = sampleAt s 0) (h : Scanned chs sample (readChannel ch s) t) : Scanned (ch :: chs) sample s t where
  frame := by
    refine h.frame.trans ?_
    rw [readChannel_eq, nextSample_eq]
    simp [hsample, Nat.add_assoc, Nat.add_comm]
  compared j hj := by
    obtain rfl | hj := List.mem_cons.1 hj
    · exact hsample ▸ (readChannel_compared j s).trans_kept (h.kept j hch)
    · have hne : j ≠ ch := fun e => hch (e ▸ hj)
      exact (readChannel_kept hne s).trans_compared (nothingUndone_readChannel ch s).build (h.compared j hj)
  kept j hj := by
    obtain ⟨hne, hj⟩ := not_or.1 (mt List.mem_cons.2 hj)
    exact (readChannel_kept hne s).trans (h.kept j hj)

/-- A scan of distinct channels, the samples drawn in the order of the list. -/
theorem scanned_foldl {chs : List (Fin 16)} {sample : Fin 16 → AdcCode} (hchs : chs.Nodup)
    (hsample : chs.map sample = (List.range chs.length).map (sampleAt s)) :
    Scanned chs sample s (chs.foldl (fun s ch => readChannel ch s) s) := by
  induction chs generalizing s with
  | nil => exact .nil sample s
  | cons ch chs ih =>
    obtain ⟨hch, hchs⟩ := List.nodup_cons.1 hchs
    simp only [List.length_cons, List.range_succ_eq_map, List.map_cons, List.map_map, List.cons.injEq] at hsample
    obtain ⟨hfirst, hrest⟩ := hsample
    have hnext : sampleAt (readChannel ch s) = sampleAt s ∘ Nat.succ := funext (readChannel_sampleAt ch s)
    rw [← hnext] at hrest
    rw [List.foldl_cons]
    exact .cons hch hfirst (ih hchs hrest)

/-- The last channel of a scan stays selected. -/
theorem routedChannel_foldl_concat (chs : List (Fin 16)) (ch : Fin 16) (s : State) :
    routedChannel ((chs ++ [ch]).foldl (fun s ch => readChannel ch s) s) = ch.val := by
  rw [List.foldl_concat]
  exact routedChannel_readChannel ch _

/-! ### AMX.READ and AMX.READALL (R144, R148) -/

/-- Settles O37: a scan of the one channel. -/
theorem amxReadSamplesAndCompares : Obligations.AmxReadSamplesAndCompares := by
  intro s ch hamx
  have hscan : Scanned [ch] (fun _ => sampleAt s 0) s (readChannel ch s) :=
    scanned_foldl (List.nodup_singleton ch) rfl
  obtain ⟨hcur, hpassed, hfailed⟩ := hscan.compared ch (List.mem_singleton_self ch)
  have hframe := congrArg (respond 0) hscan.frame
  rw [List.flatMap_singleton, List.length_singleton, List.drop_one] at hframe
  refine ⟨_, indexedCommand_ofNat hamx .amx ch s _, hframe, routedChannel_readChannel ch s, hcur, hpassed, hfailed,
    fun j hj => ?_⟩
  obtain ⟨hjcur, hjrep, hjchg⟩ := hscan.kept j (by simpa using hj)
  exact ⟨hjcur, hjrep, hjchg⟩

/-- Settles O38: a scan of the sixteen channels, the last of them channel 15. -/
theorem amxReadallScansInOrder : Obligations.AmxReadallScansInOrder := by
  intro s hamx
  have hscan : Scanned (List.finRange 16) (fun ch => sampleAt s ch.val) s
      ((List.finRange 16).foldl (fun s ch => readChannel ch s) s) :=
    scanned_foldl (List.nodup_finRange 16)
      (by rw [List.length_finRange, ← List.map_coe_finRange_eq_range, List.map_map]; rfl)
  have hlast : List.finRange 16 = (List.finRange 15).map Fin.castSucc ++ [15] := List.finRange_succ_last
  have hselect := routedChannel_foldl_concat ((List.finRange 15).map Fin.castSucc) 15 s
  rw [← hlast] at hselect
  generalize hu : (List.finRange 16).foldl (fun s ch => readChannel ch s) s = u at hscan hselect
  refine ⟨respond 0 u, (execAmxReadall_next ..).2 ⟨hamx, congrArg (respond 0) hu⟩, congrArg (respond 0) hscan.frame,
    hselect, fun ch => ?_⟩
  obtain ⟨hcur, hpassed, hfailed⟩ := hscan.compared ch (List.mem_finRange ch)
  exact ⟨hcur, hpassed, hfailed⟩

/-! ### Hysteresis (R153) -/

/-- A reported value that moved takes the sample, which passed the test. -/
theorem Compared.moves (h : Compared s ch raw t) (hrep : t.amx.rep[ch] ≠ s.amx.rep[ch]) :
    (s.build.knobThreshold.toNat : Int) < |(t.amx.rep[ch].toNat : Int) - s.amx.rep[ch].toNat| := by
  by_cases hpass : (s.build.knobThreshold.toNat : Int) < |((4095 - raw.toNat : Nat) : Int) - s.amx.rep[ch].toNat|
  · rw [(h.passed hpass).1]; exact hpass
  · exact absurd (h.failed hpass).1 hrep

/-- A reported value that stayed met a sample that failed the test: a sample that passes differs from it. -/
theorem Compared.rests (h : Compared s ch raw t) (hrep : t.amx.rep[ch] = s.amx.rep[ch]) :
    |(t.amx.cur[ch].toNat : Int) - s.amx.rep[ch].toNat| ≤ s.build.knobThreshold.toNat := by
  rw [h.cur]
  refine not_lt.1 fun hpass => ?_
  have hequal : 4095 - raw.toNat = s.amx.rep[ch].toNat := by rw [← (h.passed hpass).1, hrep]
  rw [hequal, sub_self, abs_zero] at hpass
  omega

/-- AMX.READ puts the channel it names to the test and keeps every other one (R46, R144). -/
theorem compared_or_kept_of_amxRead {a : Byte} (h : exec (.amxRead a) s = .next t) (ch : Fin 16) :
    (∃ raw, Compared s ch raw t) ∨ index16 a ≠ some ch ∧ ChannelKept s ch t := by
  obtain ⟨hout, rfl⟩ | ⟨i, hi, _, rfl⟩ := (execAmxRead_next ..).1 h
  · exact .inr ⟨by simp [hout], rfl, rfl, rfl⟩
  · obtain rfl | hch := eq_or_ne ch i
    · exact .inl ⟨_, (readChannel_compared ch s).respond 0⟩
    · exact .inr ⟨by simpa [hi] using hch.symm, (readChannel_kept hch s).respond 0⟩

/-- AMX.READALL puts every channel to the test (R148). -/
theorem compared_of_amxReadall (h : exec .amxReadall s = .next t) (ch : Fin 16) : ∃ raw, Compared s ch raw t := by
  obtain ⟨hamx, _⟩ := (execAmxReadall_next ..).1 h
  obtain ⟨u, hu, _, _, htables⟩ := amxReadallScansInOrder s hamx
  rw [h] at hu
  cases hu
  obtain ⟨hcur, hpassed, hfailed⟩ := htables ch
  exact ⟨_, hcur, hpassed, hfailed⟩

/-- Any command but AMX.INIT keeps a reported value or puts its channel to the test. -/
theorem compared_or_rep_kept {i : Instr} (h : exec i s = .next t) (hinit : ∀ f, i ≠ .amxInit f) (ch : Fin 16) :
    (∃ raw, Compared s ch raw t) ∨ t.amx.rep[ch] = s.amx.rep[ch] := by
  cases i with
  | amxInit f => exact absurd rfl (hinit f)
  | amxRead a => exact (compared_or_kept_of_amxRead h ch).imp_right fun ⟨_, hkept⟩ => hkept.rep
  | amxReadall => exact .inl (compared_of_amxReadall h ch)
  | amxValue a => obtain ⟨_, rfl⟩ | ⟨_, _, _, rfl⟩ := (execAmxValue_next ..).1 h <;> exact .inr rfl
  | amxChanged a =>
    obtain ⟨_, rfl⟩ | ⟨_, _, _, rfl⟩ := (execAmxChanged_next ..).1 h
    · exact .inr rfl
    · split <;> exact .inr rfl
  | amxReset a => obtain ⟨_, rfl⟩ | ⟨_, _, _, rfl⟩ := (execAmxReset_next ..).1 h <;> exact .inr rfl
  | amxResetall => obtain ⟨_, rfl⟩ := (execAmxResetall_next ..).1 h; exact .inr rfl
  | _ =>
    obtain ⟨hamx, _⟩ := (exec_effect h).amx_kept nofun
    rw [hamx]
    exact .inr rfl

/-- Settles O43: a reported value moves only by passing the test, and stays after a read only by failing it. -/
theorem reportedValueHasHysteresis : Obligations.ReportedValueHasHysteresis := by
  refine ⟨fun i s t hinit h ch hmoved => ?_, fun i s t ch hi h hstayed => ?_⟩
  · obtain ⟨_, hcompared⟩ | hkept := compared_or_rep_kept h hinit ch
    · exact hcompared.moves hmoved
    · exact absurd hkept hmoved
  · obtain rfl | rfl := hi
    · obtain ⟨_, hcompared⟩ | ⟨hother, _⟩ := compared_or_kept_of_amxRead h ch
      · exact hcompared.rests hstayed
      · exact absurd (index16_ofNat ch) hother
    · obtain ⟨_, hcompared⟩ := compared_of_amxReadall h ch
      exact hcompared.rests hstayed

end Sys2Proof.Machine
end

section
/-! PROOFS. Exceptions (60_exceptions.md): which command completes and which is uninitialised use (R172, R175, R191), and
how many events of each kind a command emits with `SHIFT16` (R184, R213). Both are said once of each form of command, by
its order of checks, and then read off for the 24. -/

namespace Sys2Proof.Machine

variable {s t : State} {a : Byte}

/-! ### An index in its space leaves the check of the ghost flag (R175) -/

theorem indexedCommand_eq_ifInited (ha : a.toNat < 16) (u : Unit3) (flag : Bool) (s : State) (f : Fin 16 → State) :
    indexedCommand u flag a s f = ifInited u flag (f ⟨a.toNat, ha⟩) := by
  rw [indexedCommand, index16_of_lt a ha]

theorem ledIndexedCommand_eq_ifInited (ha : a.toNat < nLed (backendOf s.build)) (f : Fin 16 → State) :
    ledIndexedCommand a s f = ifInited .led s.led.inited (f ⟨a.toNat, ha.trans_le (nLed_le _)⟩) := by
  rw [ledIndexedCommand, ledIndex_of_lt _ a ha]

theorem ledCommand_eq_ifInited (hbackend : backendOf s.build ≠ .disabled) (e : State) :
    ledCommand s e = ifInited .led s.led.inited e := by
  rcases h : backendOf s.build with _ | _ | _
  case shift16 => simp only [ledCommand, h]
  case gpio8 => simp only [ledCommand, h]
  case disabled => exact absurd h hbackend

/-! ### Completion and uninitialised use (R172, R191) -/

/-- An outcome in `s` as the table of R191 has it for a command that needs the INIT of a unit, or of none. -/
def CompletesIffInited (s : State) (o : Host.Outcome State Fault Refusal) : Option Unit3 → Prop
  | none => ∃ t, o = .next t
  | some u =>
    (ghostFlag s u = true → ∃ t, o = .next t) ∧ (ghostFlag s u = false → o = .refused (.uninitializedUse u))

theorem completes_next (s t : State) : CompletesIffInited s (.next t) none := ⟨t, rfl⟩

theorem completesIffInited_ifInited (u : Unit3) (s e : State) :
    CompletesIffInited s (ifInited u (ghostFlag s u) e) (some u) :=
  ⟨fun hflag => ⟨e, (ifInited_next ..).2 ⟨hflag, rfl⟩⟩, fun hflag => by rw [hflag]; rfl⟩

theorem completesIffInited_indexedCommand (u : Unit3) (a : Byte) (s : State) (f : Fin 16 → State) :
    CompletesIffInited s (indexedCommand u (ghostFlag s u) a s f) (if a.toNat < 16 then some u else none) := by
  split
  next ha => rw [indexedCommand_eq_ifInited ha]; exact completesIffInited_ifInited ..
  next ha => rw [indexedCommand_of_ge (not_lt.1 ha)]; exact completes_next ..

theorem completesIffInited_ledIndexedCommand (a : Byte) (s : State) (f : Fin 16 → State) :
    CompletesIffInited s (ledIndexedCommand a s f)
      (if a.toNat < nLed (backendOf s.build) then some .led else none) := by
  split
  next ha => rw [ledIndexedCommand_eq_ifInited ha]; exact completesIffInited_ifInited ..
  next ha => rw [ledIndexedCommand_of_ge (not_lt.1 ha)]; exact completes_next ..

theorem completesIffInited_ledCommand (s e : State) :
    CompletesIffInited s (ledCommand s e) (if backendOf s.build = .disabled then none else some .led) := by
  split
  next hbackend => rw [ledCommand_of_disabled hbackend]; exact completes_next ..
  next hbackend => rw [ledCommand_eq_ifInited hbackend]; exact completesIffInited_ifInited ..

/-- MAP.L2B has no unit: in range or not, it completes (R103, R191). -/
theorem execMapL2b_completes (a : Byte) (s : State) : CompletesIffInited s (execMapL2b a s) none := by
  obtain ha | ha := lt_or_ge a.toNat 16
  · rw [execMapL2b_of_lt ha]; exact completes_next ..
  · rw [execMapL2b_of_ge ha]; exact completes_next ..

/-- Settles O10: the INITs and MAP.L2B have no flag to check, and every other command is of one of the four forms. -/
theorem commandsCompleteExactlyWhenInitialised : Obligations.CommandsCompleteExactlyWhenInitialised := by
  intro i s hwf
  change CompletesIffInited s (exec i s) (neededUnit s i)
  cases i with
  | srInit a b c => exact ⟨_, if_pos hwf⟩
  | ledInit | amxInit => exact completes_next ..
  | mapL2b a => exact execMapL2b_completes a s
  | srSetbit | srGetbit => exact completesIffInited_indexedCommand .srd ..
  | srGetstate | srUpdate | srClear | srSetall => exact completesIffInited_ifInited .srd ..
  | ledSet | ledAdd | ledOn => exact completesIffInited_ledIndexedCommand ..
  | ledUpdate | ledSetall | ledSetbin | ledClear | ledCont => exact completesIffInited_ledCommand ..
  | amxRead | amxValue | amxChanged | amxReset => exact completesIffInited_indexedCommand .amx ..
  | amxReadall | amxResetall => exact completesIffInited_ifInited .amx ..

/-! ### Events added to the trace (R9) -/

/-- The trace of `t` is that of `s` followed by events of which `counts` are of each kind. -/
def Emits (s t : State) (counts : Nat × Nat × Nat × Nat) : Prop :=
  ∃ es, t.trace = s.trace ++ es ∧ eventCounts es = counts

theorem emits_iff (s t : State) (counts : Nat × Nat × Nat × Nat) :
    Emits s t counts ↔ s.trace <+: t.trace ∧ eventCounts (newEvents s t) = counts := by
  constructor
  · rintro ⟨es, htrace, hcounts⟩
    rw [newEvents, htrace, List.drop_left]
    exact ⟨List.prefix_append .., hcounts⟩
  · rintro ⟨⟨es, htrace⟩, hcounts⟩
    rw [newEvents, ← htrace, List.drop_left] at hcounts
    exact ⟨es, htrace.symm, hcounts⟩

theorem emits_zero_of_trace_eq (h : t.trace = s.trace) : Emits s t (0, 0, 0, 0) :=
  ⟨[], by rw [h, List.append_nil], rfl⟩

theorem Emits.trans {u : State} {m n : Nat × Nat × Nat × Nat} (hst : Emits s t m) (htu : Emits t u n) :
    Emits s u (m + n) := by
  obtain ⟨es, hes, rfl⟩ := hst
  obtain ⟨fs, hfs, rfl⟩ := htu
  exact ⟨es ++ fs, by rw [hfs, hes, List.append_assoc], eventCounts_append es fs⟩

/-! ### What the operations emit (R80, R144, R184) -/

theorem emits_sendImage (v : Half) (s : State) : Emits s (sendImage v s) (0, 50, 33, 0) := by
  rw [sendImage, transmit_frame]
  exact ⟨_, rfl, eventCounts_transmitEvents ..⟩

theorem emits_tick_shift16 (hbackend : backendOf s.build = .shift16) :
    Emits s (respond 0 (tickSteps s)) (0, 50, 33, 0) := by
  obtain ⟨v, htick, _⟩ := exists_tickImage hbackend
  rw [htick]
  exact emits_sendImage v (bumpDuty s)

theorem eventCounts_readEvents (bd : Build) (ch : Fin 16) (raw : AdcCode) :
    eventCounts (readEvents bd ch raw) = (0, 4, 1, 1) := rfl

theorem emits_readChannel (ch : Fin 16) (s : State) : Emits s (readChannel ch s) (0, 4, 1, 1) := by
  rw [readChannel_eq]
  exact ⟨_, rfl, eventCounts_readEvents ..⟩

theorem emits_scan (chs : List (Fin 16)) (s : State) :
    Emits s (chs.foldl (fun s ch => readChannel ch s) s) (0, 4 * chs.length, chs.length, chs.length) := by
  induction chs generalizing s with
  | nil => exact emits_zero_of_trace_eq rfl
  | cons ch chs ih =>
    have hcounts : ((0, 4 * (ch :: chs).length, (ch :: chs).length, (ch :: chs).length) : Nat × Nat × Nat × Nat) =
        (0, 4, 1, 1) + (0, 4 * chs.length, chs.length, chs.length) := by
      simp [Nat.mul_add, Nat.add_comm]
    rw [hcounts, List.foldl_cons]
    exact (emits_readChannel ch s).trans (ih (readChannel ch s))

/-! ### What a command of each form emits -/

section
variable {u : Unit3} {flag : Bool} {e : State} {f : Fin 16 → State}

theorem emits_of_ifInited {n : Nat × Nat × Nat × Nat} (h : ifInited u flag e = .next t) (he : Emits s e n) :
    Emits s t n := by
  obtain ⟨_, rfl⟩ := (ifInited_next ..).1 h
  exact he

theorem emits_of_indexedCommand {n : Nat × Nat × Nat × Nat} (h : indexedCommand u flag a s f = .next t)
    (hf : ∀ i, Emits s (f i) n) : Emits s t (if a.toNat < 16 then n else (0, 0, 0, 0)) := by
  split
  next ha => rw [indexedCommand_eq_ifInited ha] at h; exact emits_of_ifInited h (hf _)
  next ha =>
    rw [indexedCommand_of_ge (not_lt.1 ha)] at h
    cases h
    exact emits_zero_of_trace_eq rfl

/-- An ignored call is as silent as the effect (R46). -/
theorem silent_of_indexedCommand (h : indexedCommand u flag a s f = .next t) (hf : ∀ i, (f i).trace = s.trace) :
    Emits s t (0, 0, 0, 0) := by
  have hemits := emits_of_indexedCommand h fun i => emits_zero_of_trace_eq (hf i)
  rwa [ite_self] at hemits

theorem silent_of_ledIndexedCommand (h : ledIndexedCommand a s f = .next t) (hf : ∀ i, (f i).trace = s.trace) :
    Emits s t (0, 0, 0, 0) := by
  obtain ⟨_, rfl⟩ | ⟨i, _, _, rfl⟩ := (ledIndexedCommand_next ..).1 h
  · exact emits_zero_of_trace_eq rfl
  · exact emits_zero_of_trace_eq (hf i)

theorem silent_of_ledCommand (h : ledCommand s e = .next t) (he : e.trace = s.trace) : Emits s t (0, 0, 0, 0) := by
  obtain ⟨_, rfl⟩ | ⟨_, _, rfl⟩ := (ledCommand_next ..).1 h
  · exact emits_zero_of_trace_eq rfl
  · exact emits_zero_of_trace_eq he

end

/-! ### What each command emits with `SHIFT16` (R184, R213) -/

theorem emits_srInit {a b c : Pin} (h : execSrInit a b c s = .next t) : Emits s t (3, 53, 33, 0) := by
  obtain ⟨_, rfl⟩ := (execSrInit_next ..).1 h
  exact ⟨_, rfl, eventCounts_srdInitEvents _⟩

theorem emits_ledInit_shift16 (hbackend : backendOf s.build = .shift16) (h : execLedInit s = .next t) :
    Emits s t (3, 53, 33, 0) := by
  obtain rfl := (execLedInit_next ..).1 h
  rw [ledInitSteps_shift16 s hbackend]
  exact ⟨_, rfl, eventCounts_srdInitEvents _⟩

theorem emits_ledUpdate_shift16 (hbackend : backendOf s.build = .shift16) (h : execLedUpdate s = .next t) :
    Emits s t (0, 50, 33, 0) := by
  rw [execLedUpdate, ledCommand_eq_ifInited (by simp [hbackend])] at h
  exact emits_of_ifInited h (emits_tick_shift16 hbackend)

theorem emits_mapL2b (h : execMapL2b a s = .next t) : Emits s t (0, 0, 0, 0) := by
  obtain ⟨_, rfl⟩ | ⟨_, _, rfl⟩ := (execMapL2b_next ..).1 h
  · exact emits_zero_of_trace_eq rfl
  · exact emits_zero_of_trace_eq rfl

theorem emits_amxInit {x : Half} (h : execAmxInit x s = .next t) : Emits s t (5, 4, 0, 0) := by
  obtain rfl := (execAmxInit_next ..).1 h
  exact ⟨_, rfl, rfl⟩

theorem emits_of_exec {i : Instr} (hbackend : backendOf s.build = .shift16) (h : exec i s = .next t) :
    Emits s t (expectedCounts i) := by
  cases i with
  | srInit => exact emits_srInit h
  | srUpdate => exact emits_of_ifInited h (emits_sendImage s.srd.img s)
  | srClear => exact emits_of_ifInited h (emits_sendImage 0 s)
  | srSetall x => exact emits_of_ifInited h (emits_sendImage x s)
  | ledInit => exact emits_ledInit_shift16 hbackend h
  | ledUpdate => exact emits_ledUpdate_shift16 hbackend h
  | amxInit => exact emits_amxInit h
  | amxRead => exact emits_of_indexedCommand h fun ch => emits_readChannel ch s
  | amxReadall => exact emits_of_ifInited h (emits_scan (List.finRange 16) s)
  | mapL2b => exact emits_mapL2b h
  | srGetstate | amxResetall => exact emits_of_ifInited h (emits_zero_of_trace_eq rfl)
  | srSetbit | srGetbit | amxValue | amxReset => exact silent_of_indexedCommand h fun _ => rfl
  | amxChanged => exact silent_of_indexedCommand h fun _ => by split <;> rfl
  | ledSet | ledAdd | ledOn => exact silent_of_ledIndexedCommand h fun _ => rfl
  | ledSetall | ledSetbin | ledClear => exact silent_of_ledCommand h rfl
  | ledCont => exact silent_of_ledCommand h (by split <;> rfl)

/-- Settles O19: what a command emits is kept apart from the trace before it. -/
theorem eventCountsAreFixed : Obligations.EventCountsAreFixed :=
  fun i s t hbackend h => (emits_iff s t (expectedCounts i)).1 (emits_of_exec hbackend h)

end Sys2Proof.Machine
end

section
/-! PROOFS. Reset and hazards (70_reset_and_hazards.md): the power-on state (R190), what the INITs make of any state (R192),
and the frame of a bank whose LEDs are each at full brightness or dark (R208). -/

namespace Sys2Proof.Machine

/-! ### Power-on (R190) -/

theorem ghostFlag_reset (u : Unit3) : ghostFlag State.reset u = false := by
  cases u <;> rfl

/-- Settles O51: the fields of the power-on state, read off. -/
theorem resetHasFlagsClearLinesUnconfigured : Obligations.ResetHasFlagsClearLinesUnconfigured :=
  ⟨ghostFlag_reset, rfl, rfl, rfl, fun i => Vector.getElem_replicate i.isLt, fun k => Vector.getElem_replicate k.isLt,
    rfl, rfl, rfl, rfl⟩

/-- Settles O50: every clause but one speaks of an initialised unit, of which power-on has none; the one left is about the
SRD's lines, which are not configured. -/
theorem resetMeetsInvariant : Obligations.ResetMeetsInvariant where
  clocks_low := nofun
  srd_out := nofun
  pins_distinct := nofun
  chain_latched := nofun
  srd_unconfigured _ := ⟨rfl, rfl, rfl⟩
  led_enabled := nofun
  led_srd := nofun
  cadence_range := nofun
  led_out := nofun
  suppression_range := nofun
  amx_out := nofun

/-! ### From any state to one state (R192) -/

section
variable {s s' t t' : State}

/-- SR.INIT leaves a driver and a chain that its pins alone fix (R83). -/
theorem srInit_forgets {a b c : Pin} (h : execSrInit a b c s = .next t) (h' : execSrInit a b c s' = .next t') :
    t.srd = t'.srd ∧ t.chain = t'.chain ∧ t.resp = t'.resp := by
  obtain ⟨_, rfl⟩ := (execSrInit_next ..).1 h
  obtain ⟨_, rfl⟩ := (execSrInit_next ..).1 h'
  exact ⟨rfl, rfl, rfl⟩

/-- LED.INIT with `SHIFT16` takes from the state only the pins of the build (R111). -/
theorem ledInit_forgets_shift16 (hbuild : s.build = s'.build) (hbackend : backendOf s.build = .shift16)
    (h : execLedInit s = .next t) (h' : execLedInit s' = .next t') :
    t.srd = t'.srd ∧ t.chain = t'.chain ∧ t.led.b = t'.led.b ∧ t.led.dc = t'.led.dc ∧ t.led.cc = t'.led.cc ∧
      t.resp = t'.resp := by
  obtain rfl := (execLedInit_next ..).1 h
  obtain rfl := (execLedInit_next ..).1 h'
  rw [ledInitSteps_shift16 s hbackend, ledInitSteps_shift16 s' (hbuild ▸ hbackend), hbuild]
  exact ⟨rfl, rfl, rfl, rfl, rfl, rfl⟩

/-- LED.INIT with `GPIO8` writes fixed values to the lines, the counters and the eight entries it zeroes (R124). -/
theorem ledInit_forgets_gpio8 (hbuild : s.build = s'.build) (hbackend : backendOf s.build = .gpio8)
    (h : execLedInit s = .next t) (h' : execLedInit s' = .next t') :
    t.led.dc = t'.led.dc ∧ t.led.cc = t'.led.cc ∧ t.led.pinLevel = t'.led.pinLevel ∧ t.led.pinDir = t'.led.pinDir ∧
      t.resp = t'.resp ∧ ∀ j : Fin 16, j.val < 8 → t.led.b[j] = t'.led.b[j] := by
  obtain rfl := (execLedInit_next ..).1 h
  obtain rfl := (execLedInit_next ..).1 h'
  rw [ledInitSteps_gpio8 s hbackend, ledInitSteps_gpio8 s' (hbuild ▸ hbackend)]
  have hdark : ∀ (b : Vector Byte 16) (j : Fin 16), j.val < 8 → (darken (ledIndices .gpio8) b)[j] = 0 :=
    fun b j hj => (darken_ledIndices_getElem .gpio8 b j).trans (if_pos hj)
  exact ⟨rfl, rfl, rfl, rfl, rfl, fun j hj => (hdark s.led.b j hj).trans (hdark s'.led.b j hj).symm⟩

/-- AMX.INIT writes every field of the reader, and takes from the state none of them (R147). -/
theorem amxInit_forgets {f : Half} (h : execAmxInit f s = .next t) (h' : execAmxInit f s' = .next t') :
    t.amx = t'.amx ∧ t.resp = t'.resp := by
  obtain rfl := (execAmxInit_next ..).1 h
  obtain rfl := (execAmxInit_next ..).1 h'
  exact ⟨rfl, rfl⟩

end

/-- Settles O45: each INIT reaches a state that its operands and the build fix. -/
theorem initForgetsEarlierState : Obligations.InitForgetsEarlierState :=
  fun _ _ hbuild => ⟨fun _ _ _ _ _ => srInit_forgets, fun _ _ => ledInit_forgets_shift16 hbuild,
    fun _ _ => ledInit_forgets_gpio8 hbuild, fun _ _ _ => amxInit_forgets⟩

/-! ### A bank of LEDs at full brightness or dark (R208, R102) -/

/-- The map reaches every bit, so an image is known once the bit of each LED is (R101 a). -/
theorem image_ext_ledBit (bd : Build) {v w : Half}
    (h : ∀ i : Fin 16, v.getLsbD (ledBit bd i).val = w.getLsbD (ledBit bd i).val) : v = w := by
  apply BitVec.eq_of_getLsbD_eq
  intro p hp
  obtain ⟨i, hi⟩ := (ledBit_bijective bd).surjective ⟨p, hp⟩
  have hbit := h i
  rwa [hi] at hbit

/-- Full brightness is above every phase but the last (R115, R208). -/
theorem phase_lt_full_or_dark {phase : Nat} (hphase : phase < 256) (lit : Bool) :
    decide (phase < (if lit then 255 else 0 : Byte).toNat) = (lit && decide (phase ≠ 255)) := by
  cases lit with
  | false => simp
  | true =>
    have hlast : phase < 255 ↔ phase ≠ 255 := by omega
    exact decide_eq_decide.2 hlast

/-- Where the LEDs of one image are at 255 and the others dark, a tick outputs that image, but nothing in the last phase of
the period. -/
theorem exists_ledUpdate_full_or_dark {s : State} (hled : s.led.inited = true) (hbackend : backendOf s.build = .shift16)
    (hsrclk : s.srd.lSrclk = false) (hrclk : s.srd.lRclk = false) :
    ∃ t, exec .ledUpdate s = .next t ∧ ∀ full : Half,
      (∀ i : Fin 16, s.led.b[i] = if full.getLsbD (ledBit s.build i).val then 255 else 0) →
        t.chain.q = if (s.led.dc.toNat + 1) % 256 = 255 then 0 else full := by
  obtain ⟨t, hexec, heq, hbits⟩ := ledUpdateShift16TransmitsFrame s hled hbackend hsrclk hrclk
  refine ⟨t, hexec, fun full hfull => ?_⟩
  have hsent : t.chain.q = t.srd.img := by rw [heq]
  rw [hsent]
  refine image_ext_ledBit s.build fun i => ?_
  have hbit : t.srd.img.getLsbD (ledBit s.build i).val =
      (full.getLsbD (ledBit s.build i).val && decide ((s.led.dc.toNat + 1) % 256 ≠ 255)) := by
    rw [← phase_lt_full_or_dark (Nat.mod_lt _ (by decide)), ← hfull i]
    exact hbits i
  rw [hbit]
  split <;> simp [*]

/-- Settles O35: the images of the two banks are all ones and, since the map keeps the step LEDs on the low eight bits, the
low byte. -/
theorem fullBankFrames : Obligations.FullBankFrames := by
  intro s hled hbackend hsrclk hrclk
  obtain ⟨t, hexec, hframe⟩ := exists_ledUpdate_full_or_dark hled hbackend hsrclk hrclk
  refine ⟨t, hexec, fun hall => hframe 0xFFFF fun i => ?_, fun hsteps => hframe 0x00FF fun i => ?_⟩
  · have hones : ∀ p : Fin 16, (0xFFFF : Half).getLsbD p.val = true := by decide
    rw [hall i, hones, if_pos rfl]
  · have hlow : ∀ p : Fin 16, (0x00FF : Half).getLsbD p.val = decide (p.val < 8) := by decide
    rw [hsteps i, hlow]
    exact if_congr ((ledBit_lt_eight_iff s.build i).trans decide_eq_true_iff.symm) rfl rfl

end Sys2Proof.Machine
end
